-- ==== Sys2Proof/Word.lean ====
section
/-! DEFINITION. The word types of the block (spec/00_scope.md R10, R16; spec/30_encoding.md R66, R74, R78, R79).
Bit 0 is the least significant bit of every value, every value is unsigned (R16). -/

namespace Sys2Proof

/-- One link byte, "Link bytes are 8 bits" (R10). -/
abbrev Byte := BitVec 8

/-- The 16-bit button bitmask, 1 = pressed (R74). -/
abbrev ButtonState := BitVec 16

/-- The 32-bit operation word W (R66). -/
abbrev OpWord := BitVec 32

/-- The Command operand field `W[25:0]` (R69, R71). -/
abbrev CommandField := BitVec 26

/-- The 24-bit packed command, before the checksum is appended (R78). -/
abbrev Body := BitVec 24

/-- The 4-bit checksum unit (R21, R101). -/
abbrev Nibble := BitVec 4

/-- The 28-bit TransmissionWord (R79). -/
abbrev TxWord := BitVec 28

end Sys2Proof
end

