-- ==== Sys2Proof/Config.lean ====
section
/-! DEFINITION. The build parameters of spec/00_scope.md R11 as plain data, and the free values.
Every parameter is an argument of the model: `State` carries one `Config`, nothing writes it (R12, R29, R38), and a
statement about every state is a statement about every build. A constant with no body is a free value: no proof can see
what it is (notes/assumptions/2.md, 3.md). -/

namespace Sys2Proof

/-- The sixteen flags of a ButtonState (R74): the fourteen named buttons and the "two unused bits". -/
inductive Button where
  | right | down | left | up | start | select | square | cross
  | circle | triangle | r1 | l1 | r2 | l2 | unused14 | unused15
  deriving DecidableEq, Repr

/-- `BTN_POS` (R11, R75): the bit of a ButtonState that holds each flag. The spec's parameter places the fourteen named
buttons; the two unused flags take the two bits that remain (DESIGN CHOICE, notes/assumptions/4.md). -/
structure BtnPos where
  right    : Fin 16
  down     : Fin 16
  left     : Fin 16
  up       : Fin 16
  start    : Fin 16
  select   : Fin 16
  square   : Fin 16
  cross    : Fin 16
  circle   : Fin 16
  triangle : Fin 16
  r1       : Fin 16
  l1       : Fin 16
  r2       : Fin 16
  l2       : Fin 16
  unused14 : Fin 16
  unused15 : Fin 16
  deriving DecidableEq, Repr

/-- The durations of R11, each a number of ticks of one arbitrary time base (R9: absolute time is not modelled). -/
structure Timing where
  /-- half of one link bit period, > 0 -/
  tHalf       : Nat
  /-- wait from ATT asserted to the first clock fall -/
  tAttSetup   : Nat
  /-- wait between two link bytes -/
  tByteGap    : Nat
  /-- wait from the last rising clock edge to ATT release -/
  tAttHold    : Nat
  /-- real duration of one IR timing unit, > 0 -/
  tUnit       : Nat
  /-- on phase of one carrier cycle, > the off phase -/
  tCarrierOn  : Nat
  /-- off phase of one carrier cycle, > 0 -/
  tCarrierOff : Nat
  /-- the caller's pause between repeated transmissions (R84): the caller's parameter, not the block's -/
  tRepeatGap  : Nat
  deriving DecidableEq, Repr

/-- The parameters of one build (R11), "fixed when the block is built" (R38). -/
structure Config where
  /-- `CHANNEL`, the fixed channel constant, one of 1, 2, 3 (R29) -/
  channel      : BitVec 2
  /-- `BTN_POS` (R75) -/
  btnPos       : BtnPos
  /-- `INIT_LIGHT` (R41) -/
  initLight    : Bool
  /-- `INIT_THROTTLE` (R42) -/
  initThrottle : BitVec 8
  /-- `ATT_ACTIVE`, the level of the asserted attention line (R86) -/
  attActive    : Bool
  /-- `N_EMITTERS`, at least 1 (R117) -/
  nEmitters    : Nat
  /-- the durations -/
  timing       : Timing
  deriving DecidableEq, Repr

/-- FREE VALUE (R19, R94; notes/assumptions/2.md): the level of DAT at the k-th sample since reset, where the
environment's answer is not given. -/
opaque Config.freeDat : Nat → Bool

/-- FREE VALUES (R11, notes/assumptions/3.md): the durations to which the spec gives no value. `Timing.unstated` turns
them into durations that keep the bounds of R11. -/
opaque Config.freeTHalf : Nat
opaque Config.freeTAttSetup : Nat
opaque Config.freeTByteGap : Nat
opaque Config.freeTAttHold : Nat
opaque Config.freeTUnit : Nat
opaque Config.freeTCarrierExcess : Nat
opaque Config.freeTCarrierOff : Nat
opaque Config.freeTRepeatGap : Nat

end Sys2Proof
end

