-- ==== Sys2Proof/Syntax.lean ====
section
/-! DEFINITION. The instructions: one constructor per row of spec/opcode_table.json. Four operations of the caller
interface (spec/30_encoding.md R65) and the sixteen ButtonState bits that STEP acts on
(spec/43_control_state_machine.md R124 to R135). -/

namespace Sys2Proof

/-- A Command record (R77). `channel` is the two bits of the operand field; the legal values are 1, 2 and 3 (R69),
checked in WellFormed. -/
structure Command where
  channel   : BitVec 2
  light     : Bool
  throttle  : BitVec 8
  turnRight : Bool
  turn      : BitVec 6
  forward   : Bool
  tilt      : BitVec 5
  deriving DecidableEq, Repr

/-- The operations POLL, STEP, ENCODE, TRANSMIT (R65) and the button effects BTN_*, which only STEP applies. -/
inductive Instr where
  | poll
  | step (bs : ButtonState)
  | encode (c : Command)
  | transmit (word : TxWord)
  | btnRight
  | btnDown
  | btnLeft
  | btnUp
  | btnStart
  | btnSelect
  | btnSquare
  | btnCross
  | btnCircle
  | btnTriangle
  | btnR1
  | btnL1
  | btnR2
  | btnL2
  | btnUnused14
  | btnUnused15
  deriving DecidableEq, Repr

/-- What the machine fetches: an operation word the caller issues (R66), or, inside a STEP, a 16-bit ButtonState from
which the next effect is selected (the table's format ButtonState; notes/assumptions/5.md). -/
inductive Code where
  | operation (w : OpWord)
  | effect (bs : ButtonState)
  deriving DecidableEq, Repr

end Sys2Proof
end

