-- ==== Sys2Proof/Machine/Constants.lean ====
section
/-! DEFINITION. The constants the document fixes (spec/00_scope.md R13, R14, R15), each under a name of its own as R6 asks,
the reset constants, the spec's defaults for the parameters of R11, and the fixed order of the button effects (R124). -/

namespace Sys2Proof

/-- `LINK_TX[k]`, the byte sent on CMD in byte exchange k = 1..5 (R13, R80). -/
def linkTx (k : Nat) : Byte :=
  match k with
  | 1 => 0x01#8
  | 2 => 0x42#8
  | _ => 0xFF#8

/-! The IR timing constants, in timing units (R14). -/

def hdrMark : Nat := 34
def hdrSpace : Nat := 22
def zeroMark : Nat := 14
def zeroSpace : Nat := 18
def oneMark : Nat := 30
def oneSpace : Nat := 34

/-! The state machine constants (R15). -/

def neutralTilt : BitVec 5 := 31#5
def downTilt : BitVec 5 := 0#5
def fullLeftTurn : BitVec 6 := 0#6
def fullRightTurn : BitVec 6 := 63#6
def throttleStep : Nat := 3
def throttleMin : Nat := 0
def throttleMax : Nat := 255
def trimMagMin : Nat := 0
def trimMagMax : Nat := 63

/-- "Initial TrimState: `flag=false, magnitude=63`" (R15, R40). -/
def initTrimFlag : Bool := false
def initTrimMag : BitVec 6 := 63#6

/-- Levels of CLK, CMD and IR[k] between operations and after reset (R45, the spec's decisions D6, D7, D18). -/
def idleClk : Bool := true
def idleCmd : Bool := true
def idleIr : Bool := false

/-- The default `BTN_POS`: the document's list order from bit 0 (R75, the spec's decision D2). -/
def BtnPos.default : BtnPos where
  right := 0
  down := 1
  left := 2
  up := 3
  start := 4
  select := 5
  square := 6
  cross := 7
  circle := 8
  triangle := 9
  r1 := 10
  l1 := 11
  r2 := 12
  l2 := 13
  unused14 := 14
  unused15 := 15

/-- Durations the spec leaves open (R11): free values that keep the bounds of R11 (notes/assumptions/3.md). -/
def Timing.unstated : Timing where
  tHalf := Config.freeTHalf + 1
  tAttSetup := Config.freeTAttSetup
  tByteGap := Config.freeTByteGap
  tAttHold := Config.freeTAttHold
  tUnit := Config.freeTUnit + 1
  tCarrierOn := Config.freeTCarrierOff + 1 + (Config.freeTCarrierExcess + 1)
  tCarrierOff := Config.freeTCarrierOff + 1
  tRepeatGap := Config.freeTRepeatGap

/-- The build of the spec's defaults (R11, D2 to D5). CHANNEL 1 is the value of the spec's vectors, one emitter is the
smallest legal number: both are OPEN in the spec (DESIGN CHOICE, notes/assumptions/1.md). -/
def Config.default : Config where
  channel := 1#2
  btnPos := BtnPos.default
  initLight := false
  initThrottle := 0#8
  attActive := false
  nEmitters := 1
  timing := Timing.unstated

/-- The ten effects in their fixed order (R124). -/
def effectOrder : List Button :=
  [.start, .select, .up, .down, .left, .right, .l1, .r1, .triangle, .cross]

/-- The flags that select no effect (R135). -/
def noEffectButtons : List Button := [.square, .circle, .r2, .l2, .unused14, .unused15]

/-- The order in which a STEP that is run one effect at a time takes the bits of its operand: the ten effects of R124,
then the flags without an effect, whose order nothing observes (DESIGN CHOICE, notes/assumptions/5.md). -/
def selectionOrder : List Button := effectOrder ++ noEffectButtons

end Sys2Proof
end

