-- ==== Sys2Proof/Machine/Operands.lean ====
section
/-! DEFINITION. Operand assembly (spec/30_encoding.md R82): every rule by which the block builds an operand or a field. Nothing
here is sign-extended or scaled. -/

namespace Sys2Proof

/-- The bit of a ButtonState that holds a flag, `BTN_POS(b)` (R75). -/
def BtnPos.bit (p : BtnPos) (b : Button) : Fin 16 :=
  match b with
  | .right => p.right
  | .down => p.down
  | .left => p.left
  | .up => p.up
  | .start => p.start
  | .select => p.select
  | .square => p.square
  | .cross => p.cross
  | .circle => p.circle
  | .triangle => p.triangle
  | .r1 => p.r1
  | .l1 => p.l1
  | .r2 => p.r2
  | .l2 => p.l2
  | .unused14 => p.unused14
  | .unused15 => p.unused15

/-- `pressed(b) = bs[BTN_POS(b)]` (R75). -/
def pressed (p : BtnPos) (bs : ButtonState) (b : Button) : Bool :=
  bs.getLsbD (p.bit b).val

/-- The mask of one flag under `BTN_POS` (R75). -/
def BtnPos.mask (p : BtnPos) (b : Button) : ButtonState :=
  1#16 <<< (p.bit b).val

/-- The OR of the masks of a set of flags: the literal `{Start, Triangle}` of R83. -/
def BtnPos.maskOf (p : BtnPos) (l : List Button) : ButtonState :=
  l.foldr (fun b acc => p.mask b ||| acc) 0#16

/-- `v` with bit `i` replaced: `RXSHIFT[i] <- d` (R85). -/
def writeBit (v : Byte) (i : Nat) (d : Bool) : Byte :=
  (v &&& ~~~(1#8 <<< i)) ||| ((BitVec.ofBool d).setWidth 8 <<< i)

/-- ButtonState from the two captured bytes (R92): both inverted, low byte first. -/
def buttonsOf (low high : Byte) : ButtonState :=
  ~~~((high.setWidth 16 <<< 8) ||| low.setWidth 16)

/-- The packed Command operand field `W[25:0]` (R69, R71). -/
def packCommand (c : Command) : CommandField :=
  c.channel ++ c.throttle ++ 0#1 ++ BitVec.ofBool c.turnRight ++ c.turn ++
    0#1 ++ BitVec.ofBool c.light ++ BitVec.ofBool c.forward ++ c.tilt

/-- The Command read from the operand field `W[25:0]` (R69). -/
def unpackCommand (f : CommandField) : Command where
  channel := f.extractLsb' 24 2
  throttle := f.extractLsb' 16 8
  turnRight := f.getLsbD 14
  turn := f.extractLsb' 8 6
  light := f.getLsbD 6
  forward := f.getLsbD 5
  tilt := f.extractLsb' 0 5

/-- Body packing (R98): each field zero-extended and shifted to its place. -/
def packBody (c : Command) : Body :=
  c.tilt.setWidth 24
    ||| ((BitVec.ofBool c.forward).setWidth 24 <<< 5)
    ||| ((BitVec.ofBool c.light).setWidth 24 <<< 6)
    ||| (c.turn.setWidth 24 <<< 8)
    ||| ((BitVec.ofBool c.turnRight).setWidth 24 <<< 14)
    ||| (c.throttle.setWidth 24 <<< 16)

/-- Channel encoding (R100): channel 1 sets selector bit A (7), channel 2 discards the body, channel 3 sets bits 7 and 15.
A channel field of 0 is no operand (R69, R72). -/
def channelBody (channel : BitVec 2) (body : Body) : Option Body :=
  match channel.toNat with
  | 1 => some (body ||| 0x000080#24)
  | 2 => some 0x000000#24
  | 3 => some (body ||| 0x008080#24)
  | _ => none

/-- The final body of a command, after channel encoding (R98, R100). -/
def bodyOf (c : Command) : Option Body :=
  channelBody c.channel (packBody c)

/-- Word assembly (R102): `word = (body << 4) | checksum`. -/
def assembleWord (body : Body) (checksum : Nibble) : TxWord :=
  (body.setWidth 28 <<< 4) ||| checksum.setWidth 28

end Sys2Proof
end

