-- ==== Sys2Proof/Machine/Flags.lean ====
section
/-! DEFINITION. The block has no status flag and no condition code (spec/10_state.md R37). The one value it derives from another
to check it is the checksum nibble of a TransmissionWord (spec/41_command_encoder.md R101); it stands here. -/

namespace Sys2Proof

/-- Nibble j of a body, bits 4j+3 down to 4j. -/
def bodyNibble (body : Body) (j : Nat) : Nat :=
  (body.extractLsb' (4 * j) 4).toNat

/-- The exact sum of the six nibbles of the body, 0..90 (R101: "the intermediate sum is not masked per step"). -/
def nibbleSum (body : Body) : Nat :=
  bodyNibble body 5 + bodyNibble body 4 + bodyNibble body 3
    + bodyNibble body 2 + bodyNibble body 1 + bodyNibble body 0

/-- `(16 - (sum mod 16)) mod 16` (R101). -/
def checksumOf (body : Body) : Nibble :=
  BitVec.ofNat 4 ((16 - nibbleSum body % 16) % 16)

/-- The TransmissionWord of a body with its checksum (R101, R102). -/
def wordOfBody (body : Body) : TxWord :=
  assembleWord body (checksumOf body)

/-- The TransmissionWord of a command (R97); none where the channel is no channel. -/
def wordOf (c : Command) : Option TxWord :=
  (bodyOf c).map wordOfBody

end Sys2Proof
end

