-- ==== Sys2Proof/WellFormed.lean ====
section
/-! DEFINITION. What a legal operand and a legal build are (spec/00_scope.md R10, R11; spec/30_encoding.md R69, R75, R77). The
other ranges of R10 are the widths of the types. -/

namespace Sys2Proof

/-- A Command's channel is 1, 2 or 3 (R69, R77). -/
def Command.wf (c : Command) : Bool :=
  c.channel != 0#2

/-- An instruction is well formed when its operand is legal (R72, R77). -/
def Instr.wf (i : Instr) : Bool :=
  match i with
  | .encode c => c.wf
  | .poll => true
  | .step _ => true
  | .transmit _ => true
  | .btnRight => true
  | .btnDown => true
  | .btnLeft => true
  | .btnUp => true
  | .btnStart => true
  | .btnSelect => true
  | .btnSquare => true
  | .btnCross => true
  | .btnCircle => true
  | .btnTriangle => true
  | .btnR1 => true
  | .btnL1 => true
  | .btnR2 => true
  | .btnL2 => true
  | .btnUnused14 => true
  | .btnUnused15 => true

/-- `BTN_POS` must be injective (R75): no two flags on one bit. -/
def BtnPos.wf (p : BtnPos) : Bool :=
  decide ((selectionOrder.map p.bit).Nodup)

/-- The bounds of R11 on the durations. -/
def Timing.wf (t : Timing) : Bool :=
  decide (0 < t.tHalf) && decide (0 < t.tUnit) && decide (0 < t.tCarrierOff)
    && decide (t.tCarrierOff < t.tCarrierOn)

/-- A legal build (R11). -/
def Config.wf (c : Config) : Bool :=
  c.channel != 0#2 && c.btnPos.wf && decide (0 < c.nEmitters) && c.timing.wf

end Sys2Proof
end

