-- ==== Sys2Proof/Decode.lean ====
section
/-! DEFINITION. The decoder and the encoder of spec/30_encoding.md R66 to R73 and of the table's ButtonState rows (R75). Decoding is
total; what it does not accept it rejects by name (R72). -/

namespace Sys2Proof

/-- Why an operation word is refused (R72, R147): "a reserved bit set, or an ENCODE channel field of 00". -/
inductive Reject where
  | reservedBitSet
  | channelZero
  deriving DecidableEq, Repr

/-- OPSEL, `W[31:30]` (R66). -/
def opsel (w : OpWord) : BitVec 2 := w.extractLsb' 30 2

/-- The reserved bits of each format, which must be 0 (R67 to R70). -/
def reservedMask (sel : BitVec 2) : OpWord :=
  match sel.toNat with
  | 0 => 0x3FFFFFFF#32
  | 1 => 0x3FFF0000#32
  | 2 => 0x3C008080#32
  | _ => 0x30000000#32

/-- The operation of a word whose reserved bits are 0. -/
def operationOf (w : OpWord) : Instr :=
  match (opsel w).toNat with
  | 0 => .poll
  | 1 => .step (w.extractLsb' 0 16)
  | 2 => .encode (unpackCommand (w.extractLsb' 0 26))
  | _ => .transmit (w.extractLsb' 0 28)

/-- The decoder of an operation word (R65 to R73). -/
def decodeOperation (w : OpWord) : Except Reject Instr :=
  if w &&& reservedMask (opsel w) = 0#32 then
    if opsel w = 0b10#2 ∧ w.extractLsb' 24 2 = 0#2 then .error .channelZero
    else .ok (operationOf w)
  else .error .reservedBitSet

/-- The instruction of a flag's row in the opcode table. -/
def effectInstr (b : Button) : Instr :=
  match b with
  | .right => .btnRight
  | .down => .btnDown
  | .left => .btnLeft
  | .up => .btnUp
  | .start => .btnStart
  | .select => .btnSelect
  | .square => .btnSquare
  | .cross => .btnCross
  | .circle => .btnCircle
  | .triangle => .btnTriangle
  | .r1 => .btnR1
  | .l1 => .btnL1
  | .r2 => .btnR2
  | .l2 => .btnL2
  | .unused14 => .btnUnused14
  | .unused15 => .btnUnused15

/-- The next flag to act on: the first one in the fixed order (R124) whose bit is set. -/
def nextFlag (p : BtnPos) (bs : ButtonState) : Option Button :=
  selectionOrder.find? (fun b => pressed p bs b)

/-- The decoder of a ButtonState row: the effect of the next flag. With no flag set there is none, and a STEP ends. -/
def decodeEffect (p : BtnPos) (bs : ButtonState) : Option Instr :=
  (nextFlag p bs).map effectInstr

/-- The decoder of either form. -/
def decode (p : BtnPos) (code : Code) : Option Instr :=
  match code with
  | .operation w => (decodeOperation w).toOption
  | .effect bs => decodeEffect p bs

/-- The operation word of an operand field and a selector (R66). -/
def operationWord (sel : BitVec 2) (operand : BitVec 30) : OpWord := sel ++ operand

/-- The encoder: the words of R67 to R70, and the one-bit ButtonState of a flag's row (R75). -/
def encode (p : BtnPos) (i : Instr) : Code :=
  match i with
  | .poll => .operation (operationWord 0b00#2 0#30)
  | .step bs => .operation (operationWord 0b01#2 (bs.setWidth 30))
  | .encode c => .operation (operationWord 0b10#2 ((packCommand c).setWidth 30))
  | .transmit word => .operation (operationWord 0b11#2 (word.setWidth 30))
  | .btnRight => .effect (p.mask .right)
  | .btnDown => .effect (p.mask .down)
  | .btnLeft => .effect (p.mask .left)
  | .btnUp => .effect (p.mask .up)
  | .btnStart => .effect (p.mask .start)
  | .btnSelect => .effect (p.mask .select)
  | .btnSquare => .effect (p.mask .square)
  | .btnCross => .effect (p.mask .cross)
  | .btnCircle => .effect (p.mask .circle)
  | .btnTriangle => .effect (p.mask .triangle)
  | .btnR1 => .effect (p.mask .r1)
  | .btnL1 => .effect (p.mask .l1)
  | .btnR2 => .effect (p.mask .r2)
  | .btnL2 => .effect (p.mask .l2)
  | .btnUnused14 => .effect (p.mask .unused14)
  | .btnUnused15 => .effect (p.mask .unused15)

/-- The code that `nbits` table bits stand for: the ButtonState rows have 16 bits at most, an operation word has exactly 32
(R73); no form is longer. -/
def tableCode (nbits w : Nat) : Option Code :=
  if nbits ≤ 16 then some (.effect (BitVec.ofNat 16 w))
  else if nbits ≤ 32 then some (.operation (BitVec.ofNat 32 w))
  else none

/-- The instruction the decoder reads from a word of the opcode table, whose ButtonState rows assume the default
`BTN_POS`. -/
def decodeTableWord (nbits w : Nat) : Option Instr :=
  (tableCode nbits w).bind (decode BtnPos.default)

end Sys2Proof
end

