-- ==== Sys2Proof/Machine/State.lean ====
section
/-! DEFINITION. The state of the block (spec/10_state.md R22), the pin-event trace that observes it (spec/00_scope.md R9, R18), the
two ends of its outside world (what the caller has issued, what the environment answers on DAT) and the reset state (R40 to
R46). The block has no memory of any kind (spec/20_memory.md R47), so State holds none. -/

namespace Sys2Proof.Machine

/-- PHASE, the operation sequencer (R31). -/
inductive Phase where
  | idle
  | poll
  | step
  | encode
  | transmit
  deriving DecidableEq, Repr

/-- The output pins that `Drive` sets (R18, R34). The emitter lines IR[k] are driven by Mark and Space. -/
inductive Pin where
  | clk
  | cmd
  | att
  deriving DecidableEq, Repr

/-- A duration by its parameter's name (R11, R18). `tRepeatGap` is the caller's (R84). -/
inductive Duration where
  | tHalf
  | tAttSetup
  | tByteGap
  | tAttHold
  | tRepeatGap
  deriving DecidableEq, Repr

/-- One event of the pin-event trace (R18). -/
inductive Event where
  /-- `Drive(pin, level)` -/
  | drive (pin : Pin) (level : Bool)
  /-- `Sample(DAT)`, with the value it returned -/
  | sample (d : Bool)
  /-- `Wait(t)` -/
  | wait (t : Duration)
  /-- `Mark(n)`, n timing units -/
  | mark (n : Nat)
  /-- `Space(n)`, n timing units -/
  | space (n : Nat)
  deriving DecidableEq, Repr

/-- What the last operation handed to the caller (R71). -/
inductive Result where
  /-- no operation has returned since reset -/
  | nothing
  /-- POLL's ButtonState -/
  | buttonState (bs : ButtonState)
  /-- STEP's Command -/
  | command (c : Command)
  /-- ENCODE's TransmissionWord -/
  | word (w : TxWord)
  /-- TRANSMIT's completion -/
  | completed
  deriving DecidableEq, Repr

/-- The reasons a step stops the machine with a fault: none. "No operation raises an exception, records a cause code, or
records a faulting value" (spec/60_exceptions.md R145). -/
inductive Fault where
  deriving DecidableEq, Repr

/-- The reasons the model gives a step no meaning. -/
inductive Refusal where
  /-- raised by an arm of `exec` whose instruction has no meaning yet; safe -/
  | notModelled (mnemonic : String)
  /-- raised by `step`: the caller issued a word with a reserved bit set (R72, R147); safe -/
  | reservedBitSet
  /-- raised by `step` and by ENCODE: the channel field is 00 (R72, R105, R147); safe -/
  | channelZero
  /-- raised by `step` in a state that stands inside a POLL, ENCODE or TRANSMIT, which no run of the model reaches, and by the
  caller's own code (Machine/Caller.lean): the caller has no move while PHASE is not IDLE (R165); safe -/
  | operationInProgress
  /-- raised by the caller's own code (Machine/Caller.lean): `%res` names a result that the previous operation did not
  return (R83); safe -/
  | noSuchResult
  deriving DecidableEq, Repr

/-- The whole state. -/
structure State where
  /-- LIGHT (R24) -/
  light        : Bool
  /-- THROTTLE (R25) -/
  throttle     : BitVec 8
  /-- TRIM_FLAG (R26) -/
  trimFlag     : Bool
  /-- TRIM_MAG (R27) -/
  trimMag      : BitVec 6
  /-- CMD_TURNRIGHT (R30) -/
  cmdTurnRight : Bool
  /-- CMD_TURN (R30) -/
  cmdTurn      : BitVec 6
  /-- CMD_FORWARD (R30) -/
  cmdForward   : Bool
  /-- CMD_TILT (R30) -/
  cmdTilt      : BitVec 5
  /-- PHASE (R31) -/
  phase        : Phase
  /-- BYTEIDX (R32), 1..5 inside a POLL -/
  byteIdx      : Nat
  /-- BITIDX (R32), 0..7 inside a POLL -/
  bitIdx       : Nat
  /-- TXSHIFT (R32) -/
  txShift      : Byte
  /-- RXSHIFT (R32) -/
  rxShift      : Byte
  /-- RESP[1..5] (R32); RESP[k] is entry k-1 -/
  resp         : Vector Byte 5
  /-- SYMIDX (R33), 0..61 while a symbol is emitted -/
  symIdx       : Nat
  /-- the latch of CLK (R35) -/
  clk          : Bool
  /-- the latch of CMD (R35) -/
  cmd          : Bool
  /-- the latch of ATT (R35) -/
  att          : Bool
  /-- the latches IR[0..N_EMITTERS-1] (R35) -/
  ir           : List Bool
  /-- CHANNEL (R22, R29) and the other parameters of the build (R11); nothing writes it -/
  config       : Config
  /-- MODEL: the environment's answers on DAT that are given, the next one first (R19, R94) -/
  dat          : List Bool
  /-- MODEL: how many times DAT has been sampled; the index of the free value where no answer is given -/
  draws        : Nat
  /-- MODEL: the flags of the current STEP's operand not yet acted on, where a STEP is run one effect at a time -/
  effects      : ButtonState
  /-- MODEL: the operation words the caller has yet to issue, the next one first (R59, R66) -/
  issued       : List OpWord
  /-- MODEL: what the last operation handed to the caller (R71) -/
  result       : Result
  /-- MODEL: the pin-event trace, oldest event first (R9, R18) -/
  trace        : List Event
  deriving DecidableEq, Repr

/-- The state after power-on reset of a block built with the parameters `c` (R46, R159). The transient fields and the
counters "hold no value" (R43, R44); the model's zeros are notes/assumptions/6.md. -/
def State.resetWith (c : Config) : State where
  light := c.initLight
  throttle := c.initThrottle
  trimFlag := initTrimFlag
  trimMag := initTrimMag
  cmdTurnRight := false
  cmdTurn := 0#6
  cmdForward := false
  cmdTilt := 0#5
  phase := .idle
  byteIdx := 0
  bitIdx := 0
  txShift := 0#8
  rxShift := 0#8
  resp := Vector.replicate 5 0#8
  symIdx := 0
  clk := idleClk
  cmd := idleCmd
  att := !c.attActive
  ir := List.replicate c.nEmitters idleIr
  config := c
  dat := []
  draws := 0
  effects := 0#16
  issued := []
  result := .nothing
  trace := []

/-- The reset state of the build of the spec's defaults (R46; notes/assumptions/1.md). -/
def State.reset : State := State.resetWith Config.default

end Sys2Proof.Machine
end

