-- ==== Sys2Proof/Machine/Waveform.lean ====
section
/-! DEFINITION. The levels on the emitter lines inside a symbol, below the symbol level of the trace (spec/42_pulse_transmitter.md
R114 to R117). Every emitter carries the same level at every instant (R117), so one waveform is all of them. -/

namespace Sys2Proof.Machine

/-- The ticks of a named duration. -/
def durationTicks (τ : Timing) (d : Duration) : Nat :=
  match d with
  | .tHalf => τ.tHalf
  | .tAttSetup => τ.tAttSetup
  | .tByteGap => τ.tByteGap
  | .tAttHold => τ.tAttHold
  | .tRepeatGap => τ.tRepeatGap

/-- The carrier for `left` ticks (R114): on, off, on, off, …, beginning with an on phase, the last cycle cut where the mark
ends. A segment is a level and how many ticks it lasts. `fuel` bounds the number of cycles. -/
def carrier (τ : Timing) (fuel left : Nat) : List (Bool × Nat) :=
  match fuel with
  | 0 => []
  | fuel + 1 =>
    if left = 0 then []
    else if left ≤ τ.tCarrierOn then [(true, left)]
    else if left ≤ τ.tCarrierOn + τ.tCarrierOff then
      [(true, τ.tCarrierOn), (false, left - τ.tCarrierOn)]
    else
      (true, τ.tCarrierOn) :: (false, τ.tCarrierOff)
        :: carrier τ fuel (left - (τ.tCarrierOn + τ.tCarrierOff))

/-- The levels on every emitter line during one event. Outside a mark the lines are held at 0 (R115, R118). -/
def eventWave (τ : Timing) (e : Event) : List (Bool × Nat) :=
  match e with
  | .mark n => carrier τ (n * τ.tUnit) (n * τ.tUnit)
  | .space n => [(false, n * τ.tUnit)]
  | .wait d => [(false, durationTicks τ d)]
  | .drive _ _ => []
  | .sample _ => []

/-- The levels on every emitter line over a trace, symbol after symbol with no gap (R108). -/
def traceWave (τ : Timing) (l : List Event) : List (Bool × Nat) :=
  l.flatMap (eventWave τ)

/-- How many ticks a waveform lasts. -/
def waveTicks (l : List (Bool × Nat)) : Nat :=
  (l.map Prod.snd).sum

/-- The level of a waveform at tick `t`; the lines idle at 0 after its end (R118). -/
def waveLevel (l : List (Bool × Nat)) (t : Nat) : Bool :=
  match l with
  | [] => idleIr
  | (level, n) :: rest => if t < n then level else waveLevel rest (t - n)

/-- The level a waveform leaves on the lines. -/
def lastLevel (l : List (Bool × Nat)) : Bool :=
  match l.getLast? with
  | some (level, _) => level
  | none => idleIr

/-- The duration of an event in IR timing units (R107, R113): only marks and spaces have one. -/
def eventUnits (e : Event) : Nat :=
  match e with
  | .mark n => n
  | .space n => n
  | .wait _ => 0
  | .drive _ _ => 0
  | .sample _ => 0

/-- The duration of a trace in IR timing units. -/
def traceUnits (l : List Event) : Nat :=
  (l.map eventUnits).sum

end Sys2Proof.Machine
end

