-- ==== Sys2Proof/Machine/Ops.lean ====
section
/-! DEFINITION. The named operations over State: the pseudocode primitives of spec/00_scope.md R18, the start and the return of an
operation (spec/10_state.md R31, spec/30_encoding.md R71), and the two places the next instruction comes from (Machine/Control.lean
puts a code there).
TAKING AN EXCEPTION and returning from one do not exist on this block (spec/60_exceptions.md R145, R151, R152): no
operation stands for them. -/

namespace Sys2Proof.Machine

/-- Append an event to the trace (R18). -/
def emit (e : Event) (s : State) : State :=
  { s with trace := s.trace ++ [e] }

/-- `Drive(pin, level)`: the latch holds the level and the trace records the event (R18, R35). -/
def drive (pin : Pin) (level : Bool) (s : State) : State :=
  match pin with
  | .clk => { emit (.drive .clk level) s with clk := level }
  | .cmd => { emit (.drive .cmd level) s with cmd := level }
  | .att => { emit (.drive .att level) s with att := level }

/-- The bit the environment supplies for the next `Sample(DAT)`: the answer given, or else a free value (R19, R94). -/
def nextDraw (s : State) : Bool :=
  match s.dat with
  | d :: _ => d
  | [] => Config.freeDat s.draws

/-- `d <- Sample(DAT)` with d = `nextDraw s`: the answer is used up and the event recorded (R18). -/
def sample (s : State) : State :=
  { emit (.sample (nextDraw s)) s with dat := s.dat.tail, draws := s.draws + 1 }

/-- `Wait(t)` (R18). -/
def wait (t : Duration) (s : State) : State :=
  emit (.wait t) s

/-- Every emitter line at one level (R35, R117). -/
def driveIr (level : Bool) (s : State) : State :=
  { s with ir := List.replicate s.config.nEmitters level }

/-- SYMIDX is incremented after a Mark or Space ends (R107). -/
def symbolEnds (s : State) : State :=
  { s with symIdx := s.symIdx + 1 }

/-- `Mark(n)` (R18, R114): the carrier on every emitter; the lines are left at the level the cut carrier ends in. -/
def mark (n : Nat) (s : State) : State :=
  symbolEnds (driveIr (lastLevel (eventWave s.config.timing (.mark n))) (emit (.mark n) s))

/-- `Space(n)` (R18, R115): every emitter held at 0. -/
def space (n : Nat) (s : State) : State :=
  symbolEnds (driveIr false (emit (.space n) s))

/-- `PHASE <- p` (R31). -/
def enter (p : Phase) (s : State) : State :=
  { s with phase := p }

/-- `PHASE <- IDLE; return r` (R31, R71). -/
def finishOp (r : Result) (s : State) : State :=
  { s with phase := .idle, result := r }

/-- The refusal of a rejected word (R147). -/
def refusalOf (r : Reject) : Refusal :=
  match r with
  | .reservedBitSet => .reservedBitSet
  | .channelZero => .channelZero

/-- The caller's next operation word, and the state once it is issued (R59). -/
def nextIssued (s : State) : Option (OpWord × State) :=
  match s.issued with
  | [] => none
  | w :: rest => some (w, { s with issued := rest })

/-- Inside a STEP, the next flag's effect (R124), and the state with that flag's bit acted on. -/
def nextSelected (s : State) : Option (Instr × State) :=
  match nextFlag s.config.btnPos s.effects with
  | none => none
  | some b => some (effectInstr b, { s with effects := s.effects &&& ~~~(s.config.btnPos.mask b) })

end Sys2Proof.Machine
end

