-- ==== Sys2Proof/Machine/Buttons.lean ====
section
/-! DEFINITION. The button effects of ControlStateMachine (spec/43_control_state_machine.md R125 to R137): what each does when its
flag is pressed. -/

namespace Sys2Proof.Machine

/-- `min(throttle + 3, 255)`, an exact sum (R133, R175). -/
def throttleUp (t : BitVec 8) : BitVec 8 :=
  BitVec.ofNat 8 (min (t.toNat + throttleStep) throttleMax)

/-- `max(throttle - 3, 0)`, an exact difference (R134, R175). -/
def throttleDown (t : BitVec 8) : BitVec 8 :=
  BitVec.ofInt 8 (max ((t.toNat : Int) - throttleStep) throttleMin)

/-- trimL1 (R136). -/
def trimL1 (f : Bool) (m : BitVec 6) : Bool × BitVec 6 :=
  if f then (true, BitVec.ofNat 6 (min (m.toNat + 1) trimMagMax))
  else if m.toNat < trimMagMax then (false, BitVec.ofNat 6 (m.toNat + 1))
  else (true, BitVec.ofNat 6 trimMagMin)

/-- trimR1 (R137). -/
def trimR1 (f : Bool) (m : BitVec 6) : Bool × BitVec 6 :=
  if f then
    if trimMagMin < m.toNat then (true, BitVec.ofNat 6 (m.toNat - 1))
    else (false, BitVec.ofNat 6 trimMagMax)
  else (false, BitVec.ofInt 6 (max ((m.toNat : Int) - 1) trimMagMin))

/-- The new trim is latched and written into the command's turn of this cycle too (R131; R132, the spec's decision D11). -/
def latchTrim (t : Bool × BitVec 6) (s : State) : State :=
  { s with trimFlag := t.1, trimMag := t.2, cmdTurnRight := t.1, cmdTurn := t.2 }

/-- Start (R125). -/
def startEffect (s : State) : State :=
  { s with light := false, throttle := 0#8 }

/-- Select (R126). -/
def selectEffect (s : State) : State :=
  { s with light := !s.light }

/-- Up (R127). -/
def upEffect (s : State) : State :=
  { s with cmdForward := true, cmdTilt := neutralTilt }

/-- Down (R128). -/
def downEffect (s : State) : State :=
  { s with cmdForward := false, cmdTilt := downTilt }

/-- Left (R129). -/
def leftEffect (s : State) : State :=
  { s with cmdTurnRight := false, cmdTurn := fullLeftTurn }

/-- Right (R130). -/
def rightEffect (s : State) : State :=
  { s with cmdTurnRight := true, cmdTurn := fullRightTurn }

/-- L1 (R131). -/
def l1Effect (s : State) : State :=
  latchTrim (trimL1 s.trimFlag s.trimMag) s

/-- R1 (R132). -/
def r1Effect (s : State) : State :=
  latchTrim (trimR1 s.trimFlag s.trimMag) s

/-- Triangle (R133). -/
def triangleEffect (s : State) : State :=
  { s with throttle := throttleUp s.throttle }

/-- Cross (R134). -/
def crossEffect (s : State) : State :=
  { s with throttle := throttleDown s.throttle }

/-- The flags that "select no effect" (R135). -/
def noEffect (s : State) : State := s

/-- The effect of a pressed flag. -/
def effectOf (b : Button) (s : State) : State :=
  match b with
  | .start => startEffect s
  | .select => selectEffect s
  | .up => upEffect s
  | .down => downEffect s
  | .left => leftEffect s
  | .right => rightEffect s
  | .l1 => l1Effect s
  | .r1 => r1Effect s
  | .triangle => triangleEffect s
  | .cross => crossEffect s
  | .square => noEffect s
  | .circle => noEffect s
  | .r2 => noEffect s
  | .l2 => noEffect s
  | .unused14 => noEffect s
  | .unused15 => noEffect s

/-- BTN_RIGHT (R130). -/
def execBtnRight (s : State) : Host.Outcome State Fault Refusal := .next (rightEffect s)

/-- BTN_DOWN (R128). -/
def execBtnDown (s : State) : Host.Outcome State Fault Refusal := .next (downEffect s)

/-- BTN_LEFT (R129). -/
def execBtnLeft (s : State) : Host.Outcome State Fault Refusal := .next (leftEffect s)

/-- BTN_UP (R127). -/
def execBtnUp (s : State) : Host.Outcome State Fault Refusal := .next (upEffect s)

/-- BTN_START (R125). -/
def execBtnStart (s : State) : Host.Outcome State Fault Refusal := .next (startEffect s)

/-- BTN_SELECT (R126). -/
def execBtnSelect (s : State) : Host.Outcome State Fault Refusal := .next (selectEffect s)

/-- BTN_SQUARE, no effect (R135). -/
def execBtnSquare (s : State) : Host.Outcome State Fault Refusal := .next (noEffect s)

/-- BTN_CROSS (R134). -/
def execBtnCross (s : State) : Host.Outcome State Fault Refusal := .next (crossEffect s)

/-- BTN_CIRCLE, no effect (R135). -/
def execBtnCircle (s : State) : Host.Outcome State Fault Refusal := .next (noEffect s)

/-- BTN_TRIANGLE (R133). -/
def execBtnTriangle (s : State) : Host.Outcome State Fault Refusal := .next (triangleEffect s)

/-- BTN_R1 (R132). -/
def execBtnR1 (s : State) : Host.Outcome State Fault Refusal := .next (r1Effect s)

/-- BTN_L1 (R131). -/
def execBtnL1 (s : State) : Host.Outcome State Fault Refusal := .next (l1Effect s)

/-- BTN_R2, no effect (R135). -/
def execBtnR2 (s : State) : Host.Outcome State Fault Refusal := .next (noEffect s)

/-- BTN_L2, no effect (R135). -/
def execBtnL2 (s : State) : Host.Outcome State Fault Refusal := .next (noEffect s)

/-- BTN_UNUSED14, no effect (R135). -/
def execBtnUnused14 (s : State) : Host.Outcome State Fault Refusal := .next (noEffect s)

/-- BTN_UNUSED15, no effect (R135). -/
def execBtnUnused15 (s : State) : Host.Outcome State Fault Refusal := .next (noEffect s)

end Sys2Proof.Machine
end

