-- ==== Sys2Proof/Machine/Control.lean ====
section
/-! DEFINITION. ControlStateMachine: STEP (spec/43_control_state_machine.md R122 to R124, R139), and how a code comes to stand where
the next step fetches. -/

namespace Sys2Proof.Machine

/-- The start of a STEP: PHASE, the operand's flags, and the per-cycle reset (R122, R123). -/
def beginStep (bs : ButtonState) (s : State) : State :=
  { enter .step s with
    effects := bs
    cmdTurn := s.trimMag
    cmdTurnRight := s.trimFlag
    cmdTilt := neutralTilt
    cmdForward := false }

/-- One flag's effect, if it is pressed. -/
def effectIfPressed (bs : ButtonState) (s : State) (b : Button) : State :=
  if pressed s.config.btnPos bs b then effectOf b s else s

/-- The ten effects in their fixed order, each on the state the earlier ones left (R124). -/
def runEffects (bs : ButtonState) (s : State) : State :=
  effectOrder.foldl (effectIfPressed bs) s

/-- The Command handed to the caller (R139). -/
def commandOf (s : State) : Command where
  channel := s.config.channel
  light := s.light
  throttle := s.throttle
  turnRight := s.cmdTurnRight
  turn := s.cmdTurn
  forward := s.cmdForward
  tilt := s.cmdTilt

/-- The end of a STEP: every flag acted on, PHASE idle, the Command returned (R122, R139). -/
def finishStep (s : State) : State :=
  finishOp (.command (commandOf s)) { s with effects := 0#16 }

/-- STEP (R122). -/
def execStep (bs : ButtonState) (s : State) : Host.Outcome State Fault Refusal :=
  .next (finishStep (runEffects bs (beginStep bs s)))

/-- A ButtonState placed as the operand of a STEP: the STEP in progress goes on with it, and otherwise a STEP begins, so that
its per-cycle reset has written the transient fields before any effect or the return reads them (R43, R122, R123). -/
def placeOperand (bs : ButtonState) (s : State) : State :=
  if s.phase = .step then { s with effects := bs } else beginStep bs s

/-- A code placed where the next step fetches: an operation word as the caller's next word with the block idle, a
ButtonState as the operand of a STEP in progress (notes/assumptions/5.md, 7.md). -/
def placeCode (code : Code) (s : State) : State :=
  match code with
  | .operation w => { s with phase := .idle, issued := w :: s.issued }
  | .effect bs => placeOperand bs s

end Sys2Proof.Machine
end

