-- ==== Sys2Proof/Machine/Encoder.lean ====
section
/-! DEFINITION. CommandEncoder: ENCODE (spec/41_command_encoder.md R97 to R106). -/

namespace Sys2Proof.Machine

/-- ENCODE (R97). "A channel value outside {1, 2, 3} is refused" (R105). -/
def execEncode (c : Command) (s : State) : Host.Outcome State Fault Refusal :=
  match wordOf c with
  | some word => .next (finishOp (.word word) (enter .encode s))
  | none => .refused .channelZero

end Sys2Proof.Machine
end

