-- ==== Sys2Proof/Machine/Link.lean ====
section
/-! DEFINITION. ControllerLink: POLL (spec/40_controller_link.md R85 to R96). -/

namespace Sys2Proof.Machine

/-- `RXSHIFT[i] <- d` for the d that `Sample(DAT)` returns (R85, R89). -/
def sampleIntoRx (i : Nat) (s : State) : State :=
  { sample s with rxShift := writeBit s.rxShift i (nextDraw s) }

/-- One bit exchange (R88): CLK falls, the bit is driven, CLK stays low for T_HALF, DAT is sampled, CLK rises and stays high
for T_HALF. -/
def bitExchange (s : State) (i : Nat) : State :=
  let s := { s with bitIdx := i }
  let s := drive .clk false s
  let s := drive .cmd (s.txShift.getLsbD i) s
  let s := wait .tHalf s
  let s := sampleIntoRx i s
  let s := drive .clk true s
  wait .tHalf s

/-- `BYTEIDX <- k; TXSHIFT <- LINK_TX[k]; RXSHIFT <- 0` (R85). -/
def beginByte (k : Nat) (s : State) : State :=
  { s with byteIdx := k, txShift := linkTx k, rxShift := 0#8 }

/-- `RESP[k] <- RXSHIFT` (R85). -/
def keepResponse (k : Nat) (s : State) : State :=
  { s with resp := s.resp.setIfInBounds (k - 1) s.rxShift }

/-- One full-duplex byte exchange (R87), LSB first (spec/20_memory.md R50), and the gap after each byte but the last. -/
def byteExchange (s : State) (k : Nat) : State :=
  let s := keepResponse k ((List.range 8).foldl bitExchange (beginByte k s))
  if k < 5 then wait .tByteGap s else s

/-- POLL (R85). -/
def execPoll (s : State) : Host.Outcome State Fault Refusal :=
  let s := enter .poll s
  let s := drive .att s.config.attActive s
  let s := wait .tAttSetup s
  let s := [1, 2, 3, 4, 5].foldl byteExchange s
  let s := wait .tAttHold s
  let s := drive .att (!s.config.attActive) s
  .next (finishOp (.buttonState (buttonsOf s.resp[3] s.resp[4])) s)

end Sys2Proof.Machine
end

