-- ==== Sys2Proof/Machine/Transmitter.lean ====
section
/-! DEFINITION. PulseTransmitter: TRANSMIT (spec/42_pulse_transmitter.md R107 to R121). -/

namespace Sys2Proof.Machine

/-- A mark and the space after it, with no gap between (R108). -/
def symbolPair (markUnits spaceUnits : Nat) (s : State) : State :=
  space spaceUnits (mark markUnits s)

/-- The pair of data bit j of the word (R110). -/
def dataPair (word : TxWord) (s : State) (j : Nat) : State :=
  if word.getLsbD j then symbolPair oneMark oneSpace s else symbolPair zeroMark zeroSpace s

/-- `PHASE <- TRANSMIT; SYMIDX <- 0` (R107). -/
def beginFrame (s : State) : State :=
  { enter .transmit s with symIdx := 0 }

/-- TRANSMIT (R107): header twice (R109), the 28 bits MSB first (R110), trailer (R111). -/
def execTransmit (word : TxWord) (s : State) : Host.Outcome State Fault Refusal :=
  let s := beginFrame s
  let s := symbolPair hdrMark hdrSpace s
  let s := symbolPair hdrMark hdrSpace s
  let s := (List.range 28).reverse.foldl (dataPair word) s
  let s := symbolPair oneMark oneSpace s
  .next (finishOp .completed s)

end Sys2Proof.Machine
end

