-- ==== Sys2Proof/Machine/Dispatch.lean ====
section
/-! DEFINITION. The dispatch of every instruction to its meaning, one arm per row of spec/opcode_table.json. -/

namespace Sys2Proof.Machine

def exec (i : Instr) (s : State) : Host.Outcome State Fault Refusal :=
  match i with
  | .poll => Sys2Proof.Machine.execPoll s
  | .step bs => Sys2Proof.Machine.execStep bs s
  | .encode c => Sys2Proof.Machine.execEncode c s
  | .transmit word => Sys2Proof.Machine.execTransmit word s
  | .btnRight => Sys2Proof.Machine.execBtnRight s
  | .btnDown => Sys2Proof.Machine.execBtnDown s
  | .btnLeft => Sys2Proof.Machine.execBtnLeft s
  | .btnUp => Sys2Proof.Machine.execBtnUp s
  | .btnStart => Sys2Proof.Machine.execBtnStart s
  | .btnSelect => Sys2Proof.Machine.execBtnSelect s
  | .btnSquare => Sys2Proof.Machine.execBtnSquare s
  | .btnCross => Sys2Proof.Machine.execBtnCross s
  | .btnCircle => Sys2Proof.Machine.execBtnCircle s
  | .btnTriangle => Sys2Proof.Machine.execBtnTriangle s
  | .btnR1 => Sys2Proof.Machine.execBtnR1 s
  | .btnL1 => Sys2Proof.Machine.execBtnL1 s
  | .btnR2 => Sys2Proof.Machine.execBtnR2 s
  | .btnL2 => Sys2Proof.Machine.execBtnL2 s
  | .btnUnused14 => Sys2Proof.Machine.execBtnUnused14 s
  | .btnUnused15 => Sys2Proof.Machine.execBtnUnused15 s

end Sys2Proof.Machine
end

