-- ==== Sys2Proof/Machine/Step.lean ====
section
/-! DEFINITION. One step of the machine. While PHASE is IDLE the block takes the caller's next operation word and runs the whole
operation (spec/20_memory.md R57, R59; spec/70_reset_and_hazards.md R165). A state that stands inside a STEP runs the
next effect (spec/43_control_state_machine.md R124): the finer view of the same operation (spec/92_eei_decisions.md D19;
notes/assumptions/5.md). -/

namespace Sys2Proof.Machine

/-- The step function. -/
def step (s : State) : Host.Outcome State Fault Refusal :=
  match s.phase with
  | .idle =>
    match nextIssued s with
    | none => .next s
    | some (w, s') =>
      match decodeOperation w with
      | .ok i => exec i s'
      | .error r => .refused (refusalOf r)
  | .step =>
    match nextSelected s with
    | none => .next (finishStep s)
    | some (i, s') => exec i s'
  | .poll => .refused .operationInProgress
  | .encode => .refused .operationInProgress
  | .transmit => .refused .operationInProgress

/-- The state with a word of the opcode table where the next step fetches (notes/assumptions/5.md, 7.md). -/
def State.withFetchWord (s : State) (nbits w : Nat) : State :=
  match tableCode nbits w with
  | some code => placeCode code s
  | none => s

end Sys2Proof.Machine
end

