-- ==== Sys2Proof/Machine/Caller.lean ====
section
/-! DEFINITION. The caller's side of the interface, as far as the spec gives it (spec/30_encoding.md R83, R84;
spec/70_reset_and_hazards.md R169): lines that may pass on the previous result, and the pseudo-instructions CYCLE and CYCLE3,
which are the caller's expansions and not operations of the block. -/

namespace Sys2Proof.Machine

/-- One line of the spec's syntax (R83); `%res` is the result of the previous operation. -/
inductive Line where
  | poll
  | step (bs : ButtonState)
  | stepRes
  | encode (c : Command)
  | encodeRes
  | transmit (word : TxWord)
  | transmitRes
  deriving DecidableEq, Repr

/-- The operation of a line once `%res` is replaced by its value. None where the previous operation returned no such value. -/
def Line.instr (l : Line) (r : Result) : Option Instr :=
  match l, r with
  | .poll, _ => some .poll
  | .step bs, _ => some (.step bs)
  | .encode c, _ => some (.encode c)
  | .transmit word, _ => some (.transmit word)
  | .stepRes, .buttonState bs => some (.step bs)
  | .encodeRes, .command c => some (.encode c)
  | .transmitRes, .word word => some (.transmit word)
  | .stepRes, _ => none
  | .encodeRes, _ => none
  | .transmitRes, _ => none

/-- Go on with `f` from a next state; a stop stays a stop. -/
def andThen (o : Host.Outcome State Fault Refusal) (f : State → Host.Outcome State Fault Refusal) :
    Host.Outcome State Fault Refusal :=
  match o with
  | .next s => f s
  | .fault r => .fault r
  | .refused r => .refused r

/-- The caller issues one operation and the block runs it: "Each line's encoding is its operation word" (R83). The caller has
no move while PHASE is not IDLE (R165). -/
def issue (i : Instr) (s : State) : Host.Outcome State Fault Refusal :=
  match s.phase, encode s.config.btnPos i with
  | .idle, .operation w => step { s with issued := w :: s.issued }
  | _, _ => .refused .operationInProgress

/-- The caller runs a list of lines, one after the other. -/
def runLines (l : List Line) (s : State) : Host.Outcome State Fault Refusal :=
  match l with
  | [] => .next s
  | line :: rest =>
    match line.instr s.result with
    | some i => andThen (issue i s) (runLines rest)
    | none => .refused .noSuchResult

/-- `CYCLE` (R84). -/
def cycle : List Line := [.poll, .stepRes, .encodeRes, .transmitRes]

/-- `CYCLE3` (R84): the same word three times, the caller's pause between. -/
def runCycle3 (s : State) : Host.Outcome State Fault Refusal :=
  andThen (runLines [.poll, .stepRes, .encodeRes] s) fun t =>
    match t.result with
    | .word w =>
      andThen (runLines [.transmit w] t) fun t =>
      andThen (runLines [.transmit w] (wait .tRepeatGap t)) fun t =>
      runLines [.transmit w] (wait .tRepeatGap t)
    | _ => .refused .noSuchResult

end Sys2Proof.Machine
end

