-- ==== Sys2Proof/Safety.lean ====
section
/-! DEFINITION. What a good state and a safe run are, in the terms the statements use. -/

namespace Sys2Proof.Machine

/-- The output pins at the levels every operation leaves them in: CLK 1, CMD 1, ATT released, every emitter at 0
(spec/10_state.md R45, spec/40_controller_link.md R93, spec/42_pulse_transmitter.md R118). -/
abbrev State.PinsAtRest (s : State) : Prop :=
  s.clk = true ∧ s.cmd = true ∧ s.att = (!s.config.attActive) ∧
    s.ir = List.replicate s.config.nEmitters false

/-- The counters inside the ranges of R32 and R33, the end of a frame included. -/
abbrev State.CountersInRange (s : State) : Prop :=
  s.byteIdx ≤ 5 ∧ s.bitIdx ≤ 7 ∧ s.symIdx ≤ 62

/-- The invariant of every state between two steps: a legal build, no POLL, ENCODE or TRANSMIT in progress, the pins at
rest, the counters in range. -/
abbrev State.Inv (s : State) : Prop :=
  s.config.wf = true ∧ (s.phase = .idle ∨ s.phase = .step) ∧ s.PinsAtRest ∧ s.CountersInRange

/-- The trim as one dial of 128 positions, `pos(f, m) = 64·f + m` (R138). -/
def dial (f : Bool) (m : BitVec 6) : Nat :=
  64 * f.toNat + m.toNat

/-- The dial position of a state. -/
def State.dial (s : State) : Nat :=
  Machine.dial s.trimFlag s.trimMag

/-- A run of the block's operations in the order the caller issues them (R59). -/
def runInstrs (l : List Instr) (s : State) : Host.Outcome State Fault Refusal :=
  match l with
  | [] => .next s
  | i :: rest => andThen (exec i s) (runInstrs rest)

/-- A run of `n` steps of the machine. -/
def runSteps (n : Nat) (s : State) : Host.Outcome State Fault Refusal :=
  match n with
  | 0 => .next s
  | n + 1 => andThen (step s) (runSteps n)

end Sys2Proof.Machine
end

