-- ==== Sys2Proof/Certificates/Slice0/Obligations.lean ====
section
/-! DEFINITION. The statements for the provers. The vocabulary (namespace Sys2Proof.Spec) says with numbers and lists, not
with the model's own operations, what the rules give; each statement's docstring names the rules or sections it rests on. -/

namespace Sys2Proof.Spec

open Sys2Proof.Machine

/-! ### The words of the statements -/

/-- The n-th DAT sample taken from a state on (spec/00_scope.md R19): the environment's answer where one is given, else a
free value; a statement in these terms holds for every value of it. -/
def drawAt (s : State) (n : Nat) : Bool :=
  (s.dat[n]?).getD (Config.freeDat (s.draws + n))

/-- The response to byte k = 1..5: the first sample of the byte is bit 0 (spec/20_memory.md R50). -/
def responseByte (s : State) (k : Nat) : Byte :=
  BitVec.ofNat 8 ((List.range 8).map fun i => (drawAt s (8 * (k - 1) + i)).toNat * 2 ^ i).sum

/-- The ButtonState a POLL returns (spec/40_controller_link.md R92): samples 24 to 39 inverted, low byte first. -/
def pollButtons (s : State) : ButtonState :=
  BitVec.ofNat 16 ((List.range 16).map fun i => (!drawAt s (24 + i)).toNat * 2 ^ i).sum

/-- The bit driven on CMD in bit exchange n = 0..39 (spec/95_test_vectors.md L1.1): 1,0,0,0,0,0,0,0, 0,1,0,0,0,0,1,0, then
24 ones. -/
def cmdBit (n : Nat) : Bool :=
  n == 0 || n == 9 || n == 14 || decide (16 ≤ n)

/-- The six events of bit exchange n, and the gap after each byte but the last (spec/40_controller_link.md R88, R96). -/
def bitEvents (s : State) (n : Nat) : List Event :=
  [.drive .clk false, .drive .cmd (cmdBit n), .wait .tHalf, .sample (drawAt s n), .drive .clk true, .wait .tHalf]
    ++ (if n % 8 = 7 ∧ n < 39 then [.wait .tByteGap] else [])

/-- The trace of one POLL (spec/40_controller_link.md R96). -/
def pollTrace (s : State) : List Event :=
  [.drive .att s.config.attActive, .wait .tAttSetup]
    ++ (List.range 40).flatMap (bitEvents s)
    ++ [.wait .tAttHold, .drive .att (!s.config.attActive)]

/-- The state a POLL leaves. -/
def afterPoll (s : State) : State :=
  { s with
    phase := .idle
    byteIdx := 5
    bitIdx := 7
    txShift := 0xFF#8
    rxShift := responseByte s 5
    resp := #v[responseByte s 1, responseByte s 2, responseByte s 3, responseByte s 4, responseByte s 5]
    clk := true
    cmd := true
    att := !s.config.attActive
    dat := s.dat.drop 40
    draws := s.draws + 40
    result := .buttonState (pollButtons s)
    trace := s.trace ++ pollTrace s }

/-- The events on the two data lines and the clock: everything but the waits and the attention line. -/
def wireEvents (l : List Event) : List Event :=
  l.filter fun e =>
    match e with
    | .drive .clk _ => true
    | .drive .cmd _ => true
    | .sample _ => true
    | _ => false

/-- The frame of a word (spec/42_pulse_transmitter.md R109 to R111): header, 28 data pairs MSB first, trailer. -/
def frame (w : TxWord) : List Event :=
  [.mark 34, .space 22, .mark 34, .space 22]
    ++ (List.range 28).flatMap (fun j => if w.getLsbD (27 - j) then [.mark 30, .space 34] else [.mark 14, .space 18])
    ++ [.mark 30, .space 34]

/-- The number of 1 bits of a word. -/
def ones (w : TxWord) : Nat :=
  (List.range 28).countP fun i => w.getLsbD i

/-- The state a TRANSMIT leaves. -/
def afterTransmit (w : TxWord) (s : State) : State :=
  { s with
    phase := .idle
    symIdx := 62
    ir := List.replicate s.config.nEmitters false
    result := .completed
    trace := s.trace ++ frame w }

/-- Nibble j of a word, bits 4j+3 down to 4j. -/
def wordNibble (w : TxWord) (j : Nat) : Nat :=
  (w.extractLsb' (4 * j) 4).toNat

/-- A flag of the operand of a STEP under the build's `BTN_POS` (spec/30_encoding.md R75). -/
def down (s : State) (bs : ButtonState) (b : Button) : Bool :=
  bs.getLsbD (s.config.btnPos.bit b).val

/-- LIGHT after a STEP (spec/43_control_state_machine.md R124): Start, then Select. -/
def stepLight (bs : ButtonState) (s : State) : Bool :=
  let l := if down s bs .start then false else s.light
  if down s bs .select then !l else l

/-- THROTTLE after a STEP as a number: Start, Triangle, Cross (R124, R133, R134). -/
def stepThrottle (bs : ButtonState) (s : State) : Nat :=
  let t := if down s bs .start then 0 else s.throttle.toNat
  let t := if down s bs .triangle then min (t + 3) 255 else t
  if down s bs .cross then t - 3 else t

/-- The trim's dial position after a STEP: L1, then R1 (R124, R138). -/
def stepDial (bs : ButtonState) (s : State) : Nat :=
  let d := 64 * s.trimFlag.toNat + s.trimMag.toNat
  let d := if down s bs .l1 then min (d + 1) 127 else d
  if down s bs .r1 then d - 1 else d

/-- The command's turnRight and turn: the moved trim after L1 or R1, else 1, 63 after Right, else 0, 0 after Left, else
the trim (R123, R124). -/
def stepTurn (bs : ButtonState) (s : State) : Bool × BitVec 6 :=
  if down s bs .l1 || down s bs .r1 then (decide (64 ≤ stepDial bs s), BitVec.ofNat 6 (stepDial bs s % 64))
  else if down s bs .right then (true, 63#6)
  else if down s bs .left then (false, 0#6)
  else (s.trimFlag, s.trimMag)

/-- The Command a STEP returns (R139). -/
def stepCommand (bs : ButtonState) (s : State) : Command where
  channel := s.config.channel
  light := stepLight bs s
  throttle := BitVec.ofNat 8 (stepThrottle bs s)
  turnRight := (stepTurn bs s).1
  turn := (stepTurn bs s).2
  forward := down s bs .up && !down s bs .down
  tilt := if down s bs .down then 0#5 else 31#5

/-- The state a STEP leaves. -/
def afterStep (bs : ButtonState) (s : State) : State :=
  { s with
    light := stepLight bs s
    throttle := BitVec.ofNat 8 (stepThrottle bs s)
    trimFlag := decide (64 ≤ stepDial bs s)
    trimMag := BitVec.ofNat 6 (stepDial bs s % 64)
    cmdTurnRight := (stepTurn bs s).1
    cmdTurn := (stepTurn bs s).2
    cmdForward := down s bs .up && !down s bs .down
    cmdTilt := if down s bs .down then 0#5 else 31#5
    phase := .idle
    effects := 0#16
    result := .command (stepCommand bs s) }

/-- The four operations of the caller interface (spec/30_encoding.md R65). -/
def isOperation (i : Instr) : Bool :=
  match i with
  | .poll => true
  | .step _ => true
  | .encode _ => true
  | .transmit _ => true
  | _ => false

end Sys2Proof.Spec

open Sys2Proof Sys2Proof.Machine Sys2Proof.Spec

/-! ### Reset and the sequencer -/

/-- spec/10_state.md R40, for every build. -/
def Obligations.ResetTrimIsFalseSixtyThree : Prop :=
  (∀ c : Config, (State.resetWith c).trimFlag = false ∧ (State.resetWith c).trimMag = 63#6) ∧
    State.reset.trimFlag = false ∧ State.reset.trimMag = 63#6

/-- spec/10_state.md section 8 (R41, R42, R44, R45): the reset levels of the pins are the spec's own decisions D5, D6, D7 and
D18, LIGHT and THROTTLE are the build's parameters (D3), PHASE is D19. -/
def Obligations.ResetLeavesParametersIdleAndPinsReleased : Prop :=
  ∀ c : Config, ∃ s, s = State.resetWith c ∧ s.light = c.initLight ∧ s.throttle = c.initThrottle ∧ s.phase = .idle ∧
    s.att = (!c.attActive) ∧ s.clk = true ∧ s.cmd = true ∧ s.ir.length = c.nEmitters ∧ (∀ b ∈ s.ir, b = false) ∧
    s.config = c

/-- spec/70_reset_and_hazards.md section 1: the idle block waits for the caller. That waiting is a step that changes nothing
is the model's choice, notes/assumptions/7.md. -/
def Obligations.IdleBlockWaitsForTheCaller : Prop :=
  ∀ s : State, s.phase = .idle → s.issued = [] → step s = .next s

/-- spec/20_memory.md section 4 and spec/30_encoding.md section 1: a step runs the operation the caller's next word decodes
to. The queue of issued words is the model's, notes/assumptions/7.md. -/
def Obligations.StepRunsTheIssuedOperation : Prop :=
  ∀ (s : State) (w : OpWord) (rest : List OpWord) (i : Instr), s.phase = .idle → s.issued = w :: rest →
    decodeOperation w = .ok i → step s = exec i { s with issued := rest }

/-- spec/43_control_state_machine.md section 1: inside a STEP, a step runs the first pressed flag in the fixed order, and with
no flag left it returns the Command. Standing inside a STEP is the model's finer view, notes/assumptions/5.md. -/
def Obligations.StepRunsTheSelectedEffect : Prop :=
  (∀ (s : State) (b : Button) (before after : List Button), s.phase = .step →
    selectionOrder = before ++ b :: after → (∀ b' ∈ before, down s s.effects b' = false) →
    down s s.effects b = true →
    step s = exec (effectInstr b) { s with effects := s.effects &&& ~~~(1#16 <<< (s.config.btnPos.bit b).val) }) ∧
  (∀ s : State, s.phase = .step → (∀ b, down s s.effects b = false) →
    step s = .next { s with
      phase := .idle
      effects := 0#16
      result := .command ⟨s.config.channel, s.light, s.throttle, s.cmdTurnRight, s.cmdTurn, s.cmdForward, s.cmdTilt⟩ })

/-- spec/30_encoding.md section 1 and spec/60_exceptions.md section 1: which issued words are refused, and why; every other
word runs to a next state. The operation word is the spec's own decision D1, D13. That a word with both reasons is refused as
reservedBitSet, never as channelZero, is the model's choice, notes/assumptions/14.md: R147 gives no order. -/
def Obligations.IllegalWordsAreRefusedAndOthersRun : Prop :=
  ∀ (s : State) (w : OpWord) (rest : List OpWord), s.phase = .idle → s.issued = w :: rest →
    (step s = .refused .reservedBitSet ↔
      (w.extractLsb' 30 2 = 0b00#2 ∧ w.extractLsb' 0 30 ≠ 0#30) ∨
      (w.extractLsb' 30 2 = 0b01#2 ∧ w.extractLsb' 16 14 ≠ 0#14) ∨
      (w.extractLsb' 30 2 = 0b10#2 ∧ (w.extractLsb' 26 4 ≠ 0#4 ∨ w.getLsbD 15 = true ∨ w.getLsbD 7 = true)) ∨
      (w.extractLsb' 30 2 = 0b11#2 ∧ w.extractLsb' 28 2 ≠ 0#2)) ∧
    (step s = .refused .channelZero ↔
      w.extractLsb' 24 8 = 0x80#8 ∧ w.getLsbD 15 = false ∧ w.getLsbD 7 = false) ∧
    (step s = .refused .reservedBitSet ∨ step s = .refused .channelZero ∨ ∃ t, step s = .next t)

/-- spec/70_reset_and_hazards.md section 3 (R165, the spec's decision D26): the caller has no move while PHASE is not IDLE.
That a step of a state inside a POLL, ENCODE or TRANSMIT is refused, and by the name operationInProgress, is the model's choice,
notes/assumptions/8.md; a state inside a STEP, which does step, is the model's finer view, notes/assumptions/5.md. -/
def Obligations.CallerHasNoMoveWhileBusy : Prop :=
  ∀ s : State, s.phase ≠ .idle →
    (s.phase ≠ .step → step s = .refused .operationInProgress) ∧ ∀ t, step s = .next t → t.issued = s.issued

/-! ### Encoding -/

/-- Words of spec/95_test_vectors.md L2 and rows of the opcode table. -/
def Obligations.WrittenWordsDecodeAsTheTableSays : Prop :=
  decodeOperation 0b00000000000000000000000000000000#32 = .ok .poll ∧
  decodeOperation 0b01000000000000000000001000010000#32 = .ok (.step 0x0210#16) ∧
  decodeOperation 0b10000001010110100101010101001010#32 = .ok (.encode ⟨1#2, true, 90#8, true, 21#6, false, 10#5⟩) ∧
  decodeOperation 0b11000000000000111111100111110110#32 = .ok (.transmit 0x003F9F6#28) ∧
  decodeTableWord 16 0b0000000000010000 = some .btnStart ∧
  decodeTableWord 16 0b0000100000000000 = some .btnL1 ∧
  decodeTableWord 16 0b1000000000000000 = some .btnUnused15 ∧
  decodeOperation 0x80003F1F#32 = .error .channelZero ∧
  decodeOperation 0x81003F9F#32 = .error .reservedBitSet

/-- spec/30_encoding.md section 1 and R75: on every legal `BTN_POS`, decoding the code of a well-formed instruction gives it
back, for every instruction and every operand. -/
def Obligations.DecodeOfEncodeIsTheInstruction : Prop :=
  ∀ (p : BtnPos) (i : Instr), p.wf = true → i.wf = true → decode p (encode p i) = some i

/-- spec/30_encoding.md section 1 (R66 to R70): every accepted operation word is the code of the instruction it decodes to, and
where the decoder reads the operation and each operand field. -/
def Obligations.EncodeOfDecodeIsTheWord : Prop :=
  ∀ (p : BtnPos) (w : OpWord) (i : Instr), decodeOperation w = .ok i → encode p i = .operation w ∧ i.wf = true ∧
    (w.extractLsb' 30 2 = 0b00#2 → i = .poll) ∧
    (w.extractLsb' 30 2 = 0b01#2 → i = .step (w.extractLsb' 0 16)) ∧
    (w.extractLsb' 30 2 = 0b10#2 → ∃ c, i = .encode c ∧ c.tilt = w.extractLsb' 0 5 ∧ c.forward = w.getLsbD 5 ∧
      c.light = w.getLsbD 6 ∧ c.turn = w.extractLsb' 8 6 ∧ c.turnRight = w.getLsbD 14 ∧ c.throttle = w.extractLsb' 16 8 ∧
      c.channel = w.extractLsb' 24 2) ∧
    (w.extractLsb' 30 2 = 0b11#2 → i = .transmit (w.extractLsb' 0 28))

/-! ### POLL -/

/-- spec/40_controller_link.md sections 1 and 2 (R85, R93, R96): POLL completes from every state, everything it writes, its
248 events, and that all else is unchanged. The order inside a bit exchange is the spec's decision D6. What BYTEIDX, BITIDX,
TXSHIFT and RXSHIFT hold when a POLL is over is the model's deduction, notes/assumptions/10.md (R32 gives them a meaning inside a
POLL only); the answers on DAT and the count of draws are the model's, notes/assumptions/2.md. -/
def Obligations.PollCompletesWithItsWholeEffect : Prop :=
  ∀ s : State, exec .poll s = .next (afterPoll s) ∧ (pollTrace s).length = 248

/-- spec/40_controller_link.md sections 1 and 2 (R87 to R89), with spec/00_scope.md R13 and spec/20_memory.md R50: each bit exchange
drives one bit of LINK_TX and samples one bit of the response, both LSB first, in one clock cycle. The order CLK 0, CMD, sample,
CLK 1 is the spec's decision D6. -/
def Obligations.PollExchangesTheFixedBytesLsbFirst : Prop :=
  ∀ s : State, ∃ t evs, exec .poll s = .next t ∧ t.trace = s.trace ++ evs ∧
    wireEvents evs = ([0x01#8, 0x42#8, 0xFF#8, 0xFF#8, 0xFF#8].zipIdx).flatMap (fun (v, k) =>
      (List.range 8).flatMap fun i =>
        [.drive .clk false, .drive .cmd (v.getLsbD i), .sample (drawAt s (8 * k + i)), .drive .clk true]) ∧
    ∀ k : Fin 5, ∀ i : Nat, i < 8 → (t.resp[k]).getLsbD i = drawAt s (8 * k.val + i)

/-- spec/20_memory.md R51, spec/40_controller_link.md R92: the two captured bytes inverted and combined, high<<8 | low. -/
def Obligations.PollReturnsTheInvertedButtonBytes : Prop :=
  ∀ s : State, ∃ t bs, exec .poll s = .next t ∧ t.result = .buttonState bs ∧
    bs = ~~~((t.resp[4].setWidth 16 <<< 8) ||| t.resp[3].setWidth 16) ∧
    ∀ i : Nat, i < 8 →
      t.resp[3].getLsbD i = drawAt s (24 + i) ∧ t.resp[4].getLsbD i = drawAt s (32 + i) ∧
      bs.getLsbD i = (!t.resp[3].getLsbD i) ∧ bs.getLsbD (8 + i) = (!t.resp[4].getLsbD i)

/-- spec/40_controller_link.md R94: POLL has no error path, and its result is any 16-bit value. -/
def Obligations.PollNeverFailsAndCanReturnAnyValue : Prop :=
  (∀ s : State, ∃ t bs, exec .poll s = .next t ∧ t.result = .buttonState bs) ∧
  ∀ (s : State) (bs : ButtonState), ∃ answers t, answers.length = 40 ∧
    exec .poll { s with dat := answers } = .next t ∧ t.result = .buttonState bs

/-- spec/10_state.md sections 4 and 8 (R44): POLL sets every link register before it reads it. -/
def Obligations.PollIgnoresStaleLinkRegisters : Prop :=
  ∀ (s : State) (a b : Nat) (c d : Byte) (r : Vector Byte 5),
    exec .poll { s with byteIdx := a, bitIdx := b, txShift := c, rxShift := d, resp := r } = exec .poll s

/-! ### ENCODE -/

/-- spec/41_command_encoder.md R106: ENCODE is total on legal operands, its word depends on the operand alone, and no register
and no pin changes. PHASE is IDLE when an operation has returned. -/
def Obligations.EncodeIsTotalAndPure : Prop :=
  ∀ c : Command, c.wf = true → ∃ w, ∀ s : State,
    exec (.encode c) s = .next { s with phase := .idle, result := .word w }

/-- spec/41_command_encoder.md section 2 and spec/60_exceptions.md section 1 (R105, R147, the spec's decision D13). -/
def Obligations.EncodeRefusesChannelZero : Prop :=
  ∀ (c : Command) (s : State), c.channel = 0#2 → exec (.encode c) s = .refused .channelZero

/-- spec/30_encoding.md R78, spec/41_command_encoder.md R100: where each field of the Command stands in the body
`word[27:4]`, which selector bits a channel sets, and that channel 2 discards the body. -/
def Obligations.EncodePlacesFieldsAndSelectsTheChannel : Prop :=
  ∀ (c : Command) (s : State), c.wf = true → ∃ w, exec (.encode c) s = .next { s with phase := .idle, result := .word w } ∧
    (c.channel = 2#2 → w.extractLsb' 4 24 = 0#24) ∧
    (c.channel ≠ 2#2 →
      w.extractLsb' 4 5 = c.tilt ∧ w.getLsbD 9 = c.forward ∧ w.getLsbD 10 = c.light ∧ w.getLsbD 11 = true ∧
      w.extractLsb' 12 6 = c.turn ∧ w.getLsbD 18 = c.turnRight ∧ w.getLsbD 19 = decide (c.channel = 3#2) ∧
      w.extractLsb' 20 8 = c.throttle)

/-- spec/41_command_encoder.md section 2 (R101, with the spec's decision D14 on which body): the checksum nibble. -/
def Obligations.ChecksumIsTheNegatedNibbleSum : Prop :=
  ∀ (c : Command) (s : State), c.wf = true → ∃ w, exec (.encode c) s = .next { s with phase := .idle, result := .word w } ∧
    ∃ sum, sum = wordNibble w 1 + wordNibble w 2 + wordNibble w 3 + wordNibble w 4 + wordNibble w 5 + wordNibble w 6 ∧
      sum ≤ 90 ∧ wordNibble w 0 = (16 - sum % 16) % 16

/-- spec/41_command_encoder.md section 2 (R103, R104): the seven nibbles of every word sum to 0 mod 16; channel 2 gives the
word 0. -/
def Obligations.SevenNibblesSumToZero : Prop :=
  ∀ (c : Command) (s : State), c.wf = true → ∃ w, exec (.encode c) s = .next { s with phase := .idle, result := .word w } ∧
    ((List.range 7).map (wordNibble w)).sum % 16 = 0 ∧ (c.channel = 2#2 → w = 0#28)

/-! ### TRANSMIT -/

/-- spec/42_pulse_transmitter.md sections 1 to 3 (R107, R109 to R111, R118): TRANSMIT completes from every state on every word,
sends header, data and trailer, leaves every emitter at 0, and changes nothing else. SYMIDX at 62 when the frame is over is
the model's deduction, notes/assumptions/10.md (R33 gives 0..61 inside a TRANSMIT), and the result `completed` is the model's,
notes/assumptions/9.md. -/
def Obligations.TransmitSendsTheFrame : Prop :=
  ∀ (w : TxWord) (s : State), exec (.transmit w) s = .next (afterTransmit w s)

/-- spec/42_pulse_transmitter.md R112: 31 mark/space pairs, the shape of each. -/
def Obligations.FrameHasThirtyOneMarkSpacePairs : Prop :=
  ∀ (w : TxWord) (s : State), ∃ t evs, exec (.transmit w) s = .next t ∧ t.trace = s.trace ++ evs ∧ evs.length = 62 ∧
    ∀ p : Nat, p < 31 → ∃ m n, evs[2 * p]? = some (.mark m) ∧ evs[2 * p + 1]? = some (.space n) ∧
      (p < 2 → m = 34 ∧ n = 22) ∧
      (2 ≤ p → p < 30 → w.getLsbD (29 - p) = true → m = 30 ∧ n = 34) ∧
      (2 ≤ p → p < 30 → w.getLsbD (29 - p) = false → m = 14 ∧ n = 18) ∧
      (p = 30 → m = 30 ∧ n = 34)

/-- spec/42_pulse_transmitter.md section 2 (R113, R116): the duration of a frame in units and, for every legal timing, in
ticks on the emitter lines. -/
def Obligations.FrameLastsTenSeventyTwoPlusThirtyTwoPerOne : Prop :=
  ∀ (w : TxWord) (s : State) (τ : Timing), τ.wf = true → ∃ t evs, exec (.transmit w) s = .next t ∧
    t.trace = s.trace ++ evs ∧ traceUnits evs = 1072 + 32 * ones w ∧
    waveTicks (traceWave τ evs) = (1072 + 32 * ones w) * τ.tUnit

/-- spec/42_pulse_transmitter.md section 3 (R114, with the spec's decision D16, and R115): the level on the emitter lines
at every tick of a mark and of a space. -/
def Obligations.MarkCarriesTheCarrierAndSpaceIsOff : Prop :=
  ∀ (τ : Timing) (n : Nat), τ.wf = true →
    waveTicks (eventWave τ (.mark n)) = n * τ.tUnit ∧
    (∀ t, t < n * τ.tUnit →
      waveLevel (eventWave τ (.mark n)) t = decide (t % (τ.tCarrierOn + τ.tCarrierOff) < τ.tCarrierOn)) ∧
    waveTicks (eventWave τ (.space n)) = n * τ.tUnit ∧ ∀ t, waveLevel (eventWave τ (.space n)) t = false

/-- spec/10_state.md sections 4 and 8 (R44): TRANSMIT sets SYMIDX before it reads it. -/
def Obligations.TransmitIgnoresAStaleSymbolCounter : Prop :=
  ∀ (w : TxWord) (s : State) (k : Nat), exec (.transmit w) { s with symIdx := k } = exec (.transmit w) s

/-! ### STEP -/

/-- spec/43_control_state_machine.md sections 1 and 4 (R122, R124, R139; R1's write is the spec's decision D11, the exact
throttle sums are D12): STEP completes from every state on every operand, every register it writes, and that all else is
unchanged. -/
def Obligations.StepComputesItsClosedForm : Prop :=
  ∀ (bs : ButtonState) (s : State), exec (.step bs) s = .next (afterStep bs s)

/-- spec/43_control_state_machine.md section 1 (R123, R124): the per-cycle reset comes before any effect. A STEP acts as if its
transient fields held the reset values already; where no effect follows, the Command shows them; where an effect follows, the
Command shows what the effect wrote over them (R124). That R1, like L1, writes the moved trim into the Command is the spec's
decision D11 (section 2, R132). LIGHT and THROTTLE are not reset. -/
def Obligations.StepResetsTransientsAndKeepsLatches : Prop :=
  (∀ (bs : ButtonState) (s : State), exec (.step bs) s =
    exec (.step bs) { s with cmdTurn := s.trimMag, cmdTurnRight := s.trimFlag, cmdTilt := 31#5, cmdForward := false }) ∧
  (∀ (bs : ButtonState) (s : State), (∀ b ∈ effectOrder, down s bs b = false) →
    exec (.step bs) s = .next { s with
      cmdTurn := s.trimMag
      cmdTurnRight := s.trimFlag
      cmdTilt := 31#5
      cmdForward := false
      phase := .idle
      effects := 0#16
      result := .command ⟨s.config.channel, s.light, s.throttle, s.trimFlag, s.trimMag, false, 31#5⟩ }) ∧
  ∀ (bs : ButtonState) (s : State), ∃ t c, exec (.step bs) s = .next t ∧ t.result = .command c ∧
    (down s bs .up = true → down s bs .down = false → c.forward = true) ∧
    (down s bs .down = true → c.tilt = 0#5) ∧
    (down s bs .left = true → down s bs .right = false → down s bs .l1 = false → down s bs .r1 = false →
      c.turnRight = false ∧ c.turn = 0#6) ∧
    (down s bs .right = true → down s bs .l1 = false → down s bs .r1 = false → c.turnRight = true ∧ c.turn = 63#6) ∧
    (down s bs .l1 = true ∨ down s bs .r1 = true → c.turnRight = t.trimFlag ∧ c.turn = t.trimMag) ∧
    (down s bs .start = false → down s bs .select = false → c.light = s.light) ∧
    (down s bs .start = false → down s bs .triangle = false → down s bs .cross = false → c.throttle = s.throttle)

/-- spec/43_control_state_machine.md section 1 (R124): every pressed effect runs, in the fixed order, each on the state the earlier
ones left, and the consequences R124 lists. That R1, like L1, writes the moved trim into the Command, with or without Left and
Right, is the spec's decision D11 (section 2, R132); the exact sums under the throttle's clamps are D12 (R133, R134). -/
def Obligations.StepRunsPressedEffectsInTheFixedOrder : Prop :=
  ∀ (bs : ButtonState) (s : State), ∃ u t c,
    runInstrs ((([.start, .select, .up, .down, .left, .right, .l1, .r1, .triangle, .cross] : List Button).filter
      (down s bs)).map effectInstr) (beginStep bs s) = .next u ∧
    exec (.step bs) s = .next t ∧ t = finishStep u ∧ t.result = .command c ∧
    (down s bs .up = true → down s bs .down = true → c.forward = false ∧ c.tilt = 0#5) ∧
    (down s bs .left = true → down s bs .right = true → down s bs .l1 = false → down s bs .r1 = false →
      c.turnRight = true ∧ c.turn = 63#6) ∧
    (down s bs .l1 = true ∨ down s bs .r1 = true → c.turnRight = t.trimFlag ∧ c.turn = t.trimMag) ∧
    (down s bs .l1 = true → down s bs .r1 = true → t.dial = min (s.dial + 1) 127 - 1) ∧
    (down s bs .start = true → down s bs .select = true → t.light = true) ∧
    (down s bs .start = true → down s bs .triangle = true → down s bs .cross = false → t.throttle = 3#8) ∧
    (down s bs .start = false → down s bs .triangle = true → down s bs .cross = true →
      t.throttle.toNat = min (s.throttle.toNat + 3) 255 - 3)

/-- spec/10_state.md sections 3 and 8 (R30, R43): STEP writes the transient command fields before it reads them, and nothing
else reads them: a ButtonState placed in a block that is not inside a STEP begins one (the model's finer view,
notes/assumptions/5.md), and a step of an idle block differs in no other field. -/
def Obligations.StepIgnoresStaleCommandFields : Prop :=
  (∀ (s : State) (bs : ButtonState) (r : Bool) (t : BitVec 6) (f : Bool) (l : BitVec 5),
    exec (.step bs) { s with cmdTurnRight := r, cmdTurn := t, cmdForward := f, cmdTilt := l } = exec (.step bs) s) ∧
  (∀ (s : State) (nbits w : Nat) (r : Bool) (t : BitVec 6) (f : Bool) (l : BitVec 5), s.phase ≠ .step → nbits ≤ 16 →
    State.withFetchWord { s with cmdTurnRight := r, cmdTurn := t, cmdForward := f, cmdTilt := l } nbits w =
      s.withFetchWord nbits w) ∧
  ∀ (s : State) (r : Bool) (t : BitVec 6) (f : Bool) (l : BitVec 5), s.phase = .idle →
    (∀ x, step s = .refused x →
      step { s with cmdTurnRight := r, cmdTurn := t, cmdForward := f, cmdTilt := l } = .refused x) ∧
    ∀ u, step s = .next u → ∃ r' t' f' l',
      step { s with cmdTurnRight := r, cmdTurn := t, cmdForward := f, cmdTilt := l } =
        .next { u with cmdTurnRight := r', cmdTurn := t', cmdForward := f', cmdTilt := l' }

/-- spec/43_control_state_machine.md section 4 (R140): STEP never produces a Command that ENCODE would refuse. -/
def Obligations.StepsCommandIsAlwaysEncodable : Prop :=
  ∀ (s u : State) (bs : ButtonState), s.config.wf = true → ∃ t c v, exec (.step bs) s = .next t ∧
    t.result = .command c ∧ (c.tilt = 31#5 ∨ c.tilt = 0#5) ∧ exec (.encode c) u = .next v

/-- spec/43_control_state_machine.md section 4 (R144): after a STEP with no button, light and throttle are the earlier
STEP's, forward is 0 and tilt is 31. -/
def Obligations.SecondStepKeepsLatchedAndResetsTransient : Prop :=
  ∀ (s : State) (bs : ButtonState), ∃ t u c d, exec (.step bs) s = .next t ∧ t.result = .command c ∧
    exec (.step 0#16) t = .next u ∧ u.result = .command d ∧ u.light = t.light ∧ u.throttle = t.throttle ∧
    d.light = c.light ∧ d.throttle = c.throttle ∧ d.forward = false ∧ d.tilt = 31#5

/-- spec/43_control_state_machine.md R141: a held button re-applies its effect at every STEP. -/
def Obligations.HeldButtonsReapplyAtEveryStep : Prop :=
  ∀ (s : State) (bs : ButtonState) (k : Nat), ∃ t, runInstrs (List.replicate k (.step bs)) s = .next t ∧
    (down s bs .select = true → down s bs .start = false → t.light = (s.light ^^ decide (k % 2 = 1))) ∧
    (down s bs .triangle = true → down s bs .start = false → down s bs .cross = false →
      t.throttle.toNat = s.throttle.toNat + min (3 * k) (255 - s.throttle.toNat)) ∧
    (down s bs .l1 = true → down s bs .r1 = false → t.dial = min (s.dial + k) 127)

/-- spec/43_control_state_machine.md section 1 and spec/92_eei_decisions.md D19: run one effect at a time in the machine, a
STEP gives exactly what the atomic operation gives, after one step for each pressed flag and one for the return. The finer
view is the model's, notes/assumptions/5.md. -/
def Obligations.StepEqualsItsEffectsRunOneByOne : Prop :=
  ∀ (s : State) (bs : ButtonState), s.config.btnPos.wf = true →
    runSteps (selectionOrder.countP (fun b => down s bs b) + 1) (beginStep bs s) = exec (.step bs) s

/-! ### The button effects -/

/-- spec/43_control_state_machine.md R125: Start runs first in a STEP, so the other effects act on LIGHT 0 and THROTTLE 0:
the STEP is the one from LIGHT 0 and THROTTLE 0, and what Select, Triangle and Cross make of these stands at its end. -/
def Obligations.StartClearsLightAndThrottle : Prop :=
  (∀ s : State, exec .btnStart s = .next { s with light := false, throttle := 0#8 }) ∧
  decodeTableWord 16 0x0010 = some .btnStart ∧
  ∀ (s : State) (bs : ButtonState), down s bs .start = true →
    exec (.step bs) s = exec (.step bs) { s with light := false, throttle := 0#8 } ∧
    ∃ t, exec (.step bs) s = .next t ∧
      (down s bs .select = true → t.light = true) ∧
      (down s bs .select = false → t.light = false) ∧
      (down s bs .triangle = true → down s bs .cross = false → t.throttle = 3#8) ∧
      (down s bs .triangle = false → t.throttle = 0#8) ∧
      (down s bs .cross = true → t.throttle = 0#8)

/-- spec/43_control_state_machine.md R126: Select toggles; Start with Select gives 1; a held Select alternates. -/
def Obligations.SelectTogglesLight : Prop :=
  (∀ s : State, exec .btnSelect s = .next { s with light := !s.light }) ∧
  decodeTableWord 16 0x0020 = some .btnSelect ∧
  ∀ (s : State) (bs : ButtonState), down s bs .select = true → ∃ t u, exec (.step bs) s = .next t ∧
    exec (.step bs) t = .next u ∧
    (down s bs .start = true → t.light = true) ∧
    (down s bs .start = false → t.light = (!s.light) ∧ u.light = s.light)

/-- spec/43_control_state_machine.md R127. -/
def Obligations.UpDrivesForward : Prop :=
  (∀ s : State, exec .btnUp s = .next { s with cmdForward := true, cmdTilt := 31#5 }) ∧
  decodeTableWord 16 0x0008 = some .btnUp ∧
  ∀ (s : State) (bs : ButtonState), down s bs .up = true → ∃ t c, exec (.step bs) s = .next t ∧ t.result = .command c ∧
    (down s bs .down = false → c.forward = true ∧ c.tilt = 31#5) ∧
    (down s bs .down = true → c.forward = false ∧ c.tilt = 0#5)

/-- spec/43_control_state_machine.md R128. -/
def Obligations.DownTiltsAndOverridesUp : Prop :=
  (∀ s : State, exec .btnDown s = .next { s with cmdForward := false, cmdTilt := 0#5 }) ∧
  decodeTableWord 16 0x0002 = some .btnDown ∧
  ∀ (s : State) (bs : ButtonState), down s bs .down = true → ∃ t c, exec (.step bs) s = .next t ∧
    t.result = .command c ∧ c.forward = false ∧ c.tilt = 0#5

/-- spec/43_control_state_machine.md R129: Left steers this cycle only; Right, L1 and R1 override it. -/
def Obligations.LeftSteersThisCycleOnly : Prop :=
  (∀ s : State, exec .btnLeft s = .next { s with cmdTurnRight := false, cmdTurn := 0#6 }) ∧
  decodeTableWord 16 0x0004 = some .btnLeft ∧
  ∀ (s : State) (bs : ButtonState), down s bs .left = true → ∃ t c, exec (.step bs) s = .next t ∧ t.result = .command c ∧
    (down s bs .l1 = false → down s bs .r1 = false → t.trimFlag = s.trimFlag ∧ t.trimMag = s.trimMag ∧
      (down s bs .right = false → c.turnRight = false ∧ c.turn = 0#6) ∧
      (down s bs .right = true → c.turnRight = true ∧ c.turn = 63#6)) ∧
    (down s bs .l1 = true ∨ down s bs .r1 = true → c.turnRight = t.trimFlag ∧ c.turn = t.trimMag)

/-- spec/43_control_state_machine.md R130: Right steers this cycle only, overrides Left, and is overridden by L1 and R1. -/
def Obligations.RightSteersThisCycleOnly : Prop :=
  (∀ s : State, exec .btnRight s = .next { s with cmdTurnRight := true, cmdTurn := 63#6 }) ∧
  decodeTableWord 16 0x0001 = some .btnRight ∧
  ∀ (s : State) (bs : ButtonState), down s bs .right = true → ∃ t c, exec (.step bs) s = .next t ∧ t.result = .command c ∧
    (down s bs .l1 = false → down s bs .r1 = false → t.trimFlag = s.trimFlag ∧ t.trimMag = s.trimMag ∧
      c.turnRight = true ∧ c.turn = 63#6) ∧
    (down s bs .l1 = true ∨ down s bs .r1 = true → c.turnRight = t.trimFlag ∧ c.turn = t.trimMag)

/-- spec/43_control_state_machine.md R131, R136: L1 moves the trim one step towards right, latches it and writes it into the
command. -/
def Obligations.L1MovesTheTrimRight : Prop :=
  (∀ s : State, ∃ f m, exec .btnL1 s = .next { s with trimFlag := f, trimMag := m, cmdTurnRight := f, cmdTurn := m } ∧
    (s.trimFlag = true → f = true ∧ m.toNat = min (s.trimMag.toNat + 1) 63) ∧
    (s.trimFlag = false → s.trimMag.toNat < 63 → f = false ∧ m.toNat = s.trimMag.toNat + 1) ∧
    (s.trimFlag = false → s.trimMag = 63#6 → f = true ∧ m = 0#6)) ∧
  decodeTableWord 16 0x0800 = some .btnL1 ∧
  ∀ (s : State) (bs : ButtonState), down s bs .l1 = true → down s bs .r1 = false → ∃ t c u, exec (.step bs) s = .next t ∧
    t.result = .command c ∧ exec .btnL1 s = .next u ∧ t.trimFlag = u.trimFlag ∧ t.trimMag = u.trimMag ∧
    c.turnRight = t.trimFlag ∧ c.turn = t.trimMag

/-- spec/43_control_state_machine.md sections 2 and 3 (R132, R137): R1 moves the trim one step towards left, latches it and,
by the spec's decision D11, writes it into the command. -/
def Obligations.R1MovesTheTrimLeft : Prop :=
  (∀ s : State, ∃ f m, exec .btnR1 s = .next { s with trimFlag := f, trimMag := m, cmdTurnRight := f, cmdTurn := m } ∧
    (s.trimFlag = false → f = false ∧ m.toNat = s.trimMag.toNat - 1) ∧
    (s.trimFlag = true → 0 < s.trimMag.toNat → f = true ∧ m.toNat = s.trimMag.toNat - 1) ∧
    (s.trimFlag = true → s.trimMag = 0#6 → f = false ∧ m = 63#6)) ∧
  decodeTableWord 16 0x0400 = some .btnR1 ∧
  ∀ (s : State) (bs : ButtonState), down s bs .r1 = true → ∃ t c u, exec (.step bs) s = .next t ∧ exec .btnR1 s = .next u ∧
    t.result = .command c ∧ c.turnRight = t.trimFlag ∧ c.turn = t.trimMag ∧
    (down s bs .l1 = false → t.trimFlag = u.trimFlag ∧ t.trimMag = u.trimMag) ∧
    (down s bs .l1 = true → s.trimFlag = true ∧ s.trimMag = 63#6 → t.trimFlag = true ∧ t.trimMag = 62#6) ∧
    (down s bs .l1 = true → ¬(s.trimFlag = true ∧ s.trimMag = 63#6) → t.trimFlag = s.trimFlag ∧ t.trimMag = s.trimMag)

/-- spec/43_control_state_machine.md section 2 (R133, R134; the exact sums are the spec's decision D12): the clamped throttle
steps, and that Triangle runs before Cross. -/
def Obligations.TriangleAndCrossClampTheThrottle : Prop :=
  (∀ s : State, ∃ v, exec .btnTriangle s = .next { s with throttle := v } ∧ v.toNat = min (s.throttle.toNat + 3) 255) ∧
  (∀ s : State, ∃ v, exec .btnCross s = .next { s with throttle := v } ∧
    (3 ≤ s.throttle.toNat → v.toNat + 3 = s.throttle.toNat) ∧ (s.throttle.toNat < 3 → v = 0#8)) ∧
  decodeTableWord 16 0x0200 = some .btnTriangle ∧ decodeTableWord 16 0x0080 = some .btnCross ∧
  ∀ (s : State) (bs : ButtonState), down s bs .start = false → down s bs .triangle = true → down s bs .cross = true →
    ∃ t, exec (.step bs) s = .next t ∧ t.throttle.toNat = min (s.throttle.toNat + 3) 255 - 3

/-- spec/43_control_state_machine.md section 2 (R135, the spec's decision D10): the six flags without an effect change
nothing, and a STEP does not depend on them. -/
def Obligations.NoEffectFlagsChangeNothing : Prop :=
  (∀ s : State, exec .btnSquare s = .next s ∧ exec .btnCircle s = .next s ∧ exec .btnR2 s = .next s ∧
    exec .btnL2 s = .next s ∧ exec .btnUnused14 s = .next s ∧ exec .btnUnused15 s = .next s) ∧
  decodeTableWord 16 0x0040 = some .btnSquare ∧ decodeTableWord 16 0x0100 = some .btnCircle ∧
  decodeTableWord 16 0x1000 = some .btnR2 ∧ decodeTableWord 16 0x2000 = some .btnL2 ∧
  decodeTableWord 16 0x4000 = some .btnUnused14 ∧ decodeTableWord 16 0x8000 = some .btnUnused15 ∧
  ∀ (s : State) (bs bs' : ButtonState), (∀ b ∈ effectOrder, down s bs b = down s bs' b) →
    exec (.step bs) s = exec (.step bs') s

/-! ### The whole machine -/

/-- spec/10_state.md sections 5 and 6 (R35, R36): which instruction may change which state. -/
def Obligations.OnlyTheListedOperationsWrite : Prop :=
  ∀ (i : Instr) (s t : State), exec i s = .next t →
    t.config = s.config ∧ t.issued = s.issued ∧
    ((i = .poll ∨ (∃ c, i = .encode c) ∨ ∃ w, i = .transmit w) →
      t.light = s.light ∧ t.throttle = s.throttle ∧ t.trimFlag = s.trimFlag ∧ t.trimMag = s.trimMag ∧
      t.cmdTurnRight = s.cmdTurnRight ∧ t.cmdTurn = s.cmdTurn ∧ t.cmdForward = s.cmdForward ∧ t.cmdTilt = s.cmdTilt) ∧
    (i ≠ .poll → t.byteIdx = s.byteIdx ∧ t.bitIdx = s.bitIdx ∧ t.txShift = s.txShift ∧ t.rxShift = s.rxShift ∧
      t.resp = s.resp ∧ t.clk = s.clk ∧ t.cmd = s.cmd ∧ t.att = s.att ∧ t.dat = s.dat ∧ t.draws = s.draws) ∧
    ((∀ w, i ≠ .transmit w) → t.symIdx = s.symIdx ∧ t.ir = s.ir) ∧
    (i ≠ .poll → (∀ w, i ≠ .transmit w) → t.trace = s.trace) ∧
    (isOperation i = false → t.phase = s.phase ∧ t.result = s.result ∧ t.effects = s.effects)

/-- spec/10_state.md section 7 (R29, R38): no step changes a parameter of the build. -/
def Obligations.NoStepChangesTheBuild : Prop :=
  ∀ s t : State, step s = .next t → t.config = s.config

/-- spec/10_state.md section 2 (R28): in every step of the machine the trim flag flips only at the extremes. -/
def Obligations.TrimFlagFlipsOnlyAtTheExtremes : Prop :=
  ∀ s t : State, step s = .next t → t.trimFlag ≠ s.trimFlag →
    (s.trimFlag = false → s.trimMag = 63#6 ∧ t.trimMag = 0#6) ∧
    (s.trimFlag = true → s.trimMag = 0#6 ∧ t.trimMag = 63#6)

/-- spec/43_control_state_machine.md section 3 (R138): in every step of the machine the dial moves by one position at most. -/
def Obligations.TrimDialMovesByOneAtMost : Prop :=
  ∀ s t : State, step s = .next t → t.dial ≤ s.dial + 1 ∧ s.dial ≤ t.dial + 1

/-- spec/43_control_state_machine.md section 4 (R142): from reset, some sequence of STEPs reaches every trim position with
either light value. -/
def Obligations.EveryTrimAndLightIsReachable : Prop :=
  ∀ (c : Config) (f : Bool) (m : BitVec 6) (l : Bool), c.wf = true → ∃ presses t,
    runInstrs (List.map Instr.step presses) (State.resetWith c) = .next t ∧
      t.trimFlag = f ∧ t.trimMag = m ∧ t.light = l

/-- spec/43_control_state_machine.md section 4 (R143): a throttle that is a multiple of 3 stays one in every step. -/
def Obligations.ThrottleStaysAMultipleOfThree : Prop :=
  ∀ s t : State, s.throttle.toNat % 3 = 0 → step s = .next t → t.throttle.toNat % 3 = 0

/-- spec/10_state.md section 8 (R44, R45): the reset state of every legal build meets the invariant: PHASE idle and the pins at
rest. The counters in range at reset rest on the model's zeros, notes/assumptions/6.md (the spec gives them no value), and on the
model's bounds, notes/assumptions/10.md. -/
def Obligations.ResetMeetsTheMachineInvariant : Prop :=
  ∀ c : Config, c.wf = true → (State.resetWith c).Inv

/-- spec/10_state.md sections 4 and 8 (R32, R33, R45), spec/20_memory.md section 3 (R57): every step leaves the pins at rest, the
emitters equal and off, the counters in range, no POLL, ENCODE or TRANSMIT half done, and the build legal. The ranges are the
model's: SYMIDX up to 62 is its deduction, notes/assumptions/10.md, and BYTEIDX from 0 on takes in its reset zeros,
notes/assumptions/6.md. PHASE may stand inside a STEP in the model's finer view, notes/assumptions/5.md. -/
def Obligations.EveryStepKeepsTheMachineInvariant : Prop :=
  ∀ s t : State, s.Inv → step s = .next t → t.Inv

/-! ### The poll cycle -/

/-- spec/00_scope.md section 1 (R3), spec/30_encoding.md section 8 (R84): one poll cycle issued as operation words hands POLL's
ButtonState to STEP, STEP's Command to ENCODE and ENCODE's word to TRANSMIT. CYCLE as a function of the caller's is the model's,
notes/assumptions/15.md; the counters of the end state are the model's deduction, notes/assumptions/10.md. -/
def Obligations.CycleFollowsTheDataFlow : Prop :=
  ∀ s : State, s.phase = .idle → s.config.wf = true → ∃ w,
    (∀ u : State, exec (.encode (stepCommand (pollButtons s) s)) u = .next { u with phase := .idle, result := .word w }) ∧
    runLines cycle s = .next (afterTransmit w (afterStep (pollButtons s) (afterPoll s)))

/-- spec/30_encoding.md section 8 (R84, the spec's decision D22): CYCLE3 sends the same frame three times, the caller's pause
between. runCycle3, and that the caller's pauses stand in the block's trace as waits of T_REPEAT_GAP, are the model's choice,
notes/assumptions/15.md; the counters of the end state are its deduction, notes/assumptions/10.md. -/
def Obligations.Cycle3SendsTheFrameThreeTimes : Prop :=
  ∀ s : State, s.phase = .idle → s.config.wf = true → ∃ w t,
    (∀ u : State, exec (.encode (stepCommand (pollButtons s) s)) u = .next { u with phase := .idle, result := .word w }) ∧
    runCycle3 s = .next t ∧
    t.trace = s.trace ++ pollTrace s ++ frame w ++ [.wait .tRepeatGap] ++ frame w ++ [.wait .tRepeatGap] ++ frame w ∧
    t = { afterTransmit w (afterStep (pollButtons s) (afterPoll s)) with trace := t.trace }
end

