-- ==== Sys2Proof/Laws/State.lean ====
section
/-! SUPPORT. One lemma per field per update of the shared operations of Machine/Ops.lean, each true by rfl, so that no later
proof unfolds a record update. -/

namespace Sys2Proof.Machine

variable (s : State)

@[simp] theorem emit_light (e : Event) : (emit e s).light = s.light := rfl
@[simp] theorem emit_throttle (e : Event) : (emit e s).throttle = s.throttle := rfl
@[simp] theorem emit_trimFlag (e : Event) : (emit e s).trimFlag = s.trimFlag := rfl
@[simp] theorem emit_trimMag (e : Event) : (emit e s).trimMag = s.trimMag := rfl
@[simp] theorem emit_cmdTurnRight (e : Event) : (emit e s).cmdTurnRight = s.cmdTurnRight := rfl
@[simp] theorem emit_cmdTurn (e : Event) : (emit e s).cmdTurn = s.cmdTurn := rfl
@[simp] theorem emit_cmdForward (e : Event) : (emit e s).cmdForward = s.cmdForward := rfl
@[simp] theorem emit_cmdTilt (e : Event) : (emit e s).cmdTilt = s.cmdTilt := rfl
@[simp] theorem emit_phase (e : Event) : (emit e s).phase = s.phase := rfl
@[simp] theorem emit_byteIdx (e : Event) : (emit e s).byteIdx = s.byteIdx := rfl
@[simp] theorem emit_bitIdx (e : Event) : (emit e s).bitIdx = s.bitIdx := rfl
@[simp] theorem emit_txShift (e : Event) : (emit e s).txShift = s.txShift := rfl
@[simp] theorem emit_rxShift (e : Event) : (emit e s).rxShift = s.rxShift := rfl
@[simp] theorem emit_resp (e : Event) : (emit e s).resp = s.resp := rfl
@[simp] theorem emit_symIdx (e : Event) : (emit e s).symIdx = s.symIdx := rfl
@[simp] theorem emit_clk (e : Event) : (emit e s).clk = s.clk := rfl
@[simp] theorem emit_cmd (e : Event) : (emit e s).cmd = s.cmd := rfl
@[simp] theorem emit_att (e : Event) : (emit e s).att = s.att := rfl
@[simp] theorem emit_ir (e : Event) : (emit e s).ir = s.ir := rfl
@[simp] theorem emit_config (e : Event) : (emit e s).config = s.config := rfl
@[simp] theorem emit_dat (e : Event) : (emit e s).dat = s.dat := rfl
@[simp] theorem emit_draws (e : Event) : (emit e s).draws = s.draws := rfl
@[simp] theorem emit_effects (e : Event) : (emit e s).effects = s.effects := rfl
@[simp] theorem emit_issued (e : Event) : (emit e s).issued = s.issued := rfl
@[simp] theorem emit_result (e : Event) : (emit e s).result = s.result := rfl
@[simp] theorem emit_trace (e : Event) : (emit e s).trace = s.trace ++ [e] := rfl

@[simp] theorem driveClk_light (b : Bool) : (drive .clk b s).light = s.light := rfl
@[simp] theorem driveClk_throttle (b : Bool) : (drive .clk b s).throttle = s.throttle := rfl
@[simp] theorem driveClk_trimFlag (b : Bool) : (drive .clk b s).trimFlag = s.trimFlag := rfl
@[simp] theorem driveClk_trimMag (b : Bool) : (drive .clk b s).trimMag = s.trimMag := rfl
@[simp] theorem driveClk_cmdTurnRight (b : Bool) : (drive .clk b s).cmdTurnRight = s.cmdTurnRight := rfl
@[simp] theorem driveClk_cmdTurn (b : Bool) : (drive .clk b s).cmdTurn = s.cmdTurn := rfl
@[simp] theorem driveClk_cmdForward (b : Bool) : (drive .clk b s).cmdForward = s.cmdForward := rfl
@[simp] theorem driveClk_cmdTilt (b : Bool) : (drive .clk b s).cmdTilt = s.cmdTilt := rfl
@[simp] theorem driveClk_phase (b : Bool) : (drive .clk b s).phase = s.phase := rfl
@[simp] theorem driveClk_byteIdx (b : Bool) : (drive .clk b s).byteIdx = s.byteIdx := rfl
@[simp] theorem driveClk_bitIdx (b : Bool) : (drive .clk b s).bitIdx = s.bitIdx := rfl
@[simp] theorem driveClk_txShift (b : Bool) : (drive .clk b s).txShift = s.txShift := rfl
@[simp] theorem driveClk_rxShift (b : Bool) : (drive .clk b s).rxShift = s.rxShift := rfl
@[simp] theorem driveClk_resp (b : Bool) : (drive .clk b s).resp = s.resp := rfl
@[simp] theorem driveClk_symIdx (b : Bool) : (drive .clk b s).symIdx = s.symIdx := rfl
@[simp] theorem driveClk_clk (b : Bool) : (drive .clk b s).clk = b := rfl
@[simp] theorem driveClk_cmd (b : Bool) : (drive .clk b s).cmd = s.cmd := rfl
@[simp] theorem driveClk_att (b : Bool) : (drive .clk b s).att = s.att := rfl
@[simp] theorem driveClk_ir (b : Bool) : (drive .clk b s).ir = s.ir := rfl
@[simp] theorem driveClk_config (b : Bool) : (drive .clk b s).config = s.config := rfl
@[simp] theorem driveClk_dat (b : Bool) : (drive .clk b s).dat = s.dat := rfl
@[simp] theorem driveClk_draws (b : Bool) : (drive .clk b s).draws = s.draws := rfl
@[simp] theorem driveClk_effects (b : Bool) : (drive .clk b s).effects = s.effects := rfl
@[simp] theorem driveClk_issued (b : Bool) : (drive .clk b s).issued = s.issued := rfl
@[simp] theorem driveClk_result (b : Bool) : (drive .clk b s).result = s.result := rfl
@[simp] theorem driveClk_trace (b : Bool) : (drive .clk b s).trace = s.trace ++ [.drive .clk b] := rfl

@[simp] theorem driveCmd_light (b : Bool) : (drive .cmd b s).light = s.light := rfl
@[simp] theorem driveCmd_throttle (b : Bool) : (drive .cmd b s).throttle = s.throttle := rfl
@[simp] theorem driveCmd_trimFlag (b : Bool) : (drive .cmd b s).trimFlag = s.trimFlag := rfl
@[simp] theorem driveCmd_trimMag (b : Bool) : (drive .cmd b s).trimMag = s.trimMag := rfl
@[simp] theorem driveCmd_cmdTurnRight (b : Bool) : (drive .cmd b s).cmdTurnRight = s.cmdTurnRight := rfl
@[simp] theorem driveCmd_cmdTurn (b : Bool) : (drive .cmd b s).cmdTurn = s.cmdTurn := rfl
@[simp] theorem driveCmd_cmdForward (b : Bool) : (drive .cmd b s).cmdForward = s.cmdForward := rfl
@[simp] theorem driveCmd_cmdTilt (b : Bool) : (drive .cmd b s).cmdTilt = s.cmdTilt := rfl
@[simp] theorem driveCmd_phase (b : Bool) : (drive .cmd b s).phase = s.phase := rfl
@[simp] theorem driveCmd_byteIdx (b : Bool) : (drive .cmd b s).byteIdx = s.byteIdx := rfl
@[simp] theorem driveCmd_bitIdx (b : Bool) : (drive .cmd b s).bitIdx = s.bitIdx := rfl
@[simp] theorem driveCmd_txShift (b : Bool) : (drive .cmd b s).txShift = s.txShift := rfl
@[simp] theorem driveCmd_rxShift (b : Bool) : (drive .cmd b s).rxShift = s.rxShift := rfl
@[simp] theorem driveCmd_resp (b : Bool) : (drive .cmd b s).resp = s.resp := rfl
@[simp] theorem driveCmd_symIdx (b : Bool) : (drive .cmd b s).symIdx = s.symIdx := rfl
@[simp] theorem driveCmd_clk (b : Bool) : (drive .cmd b s).clk = s.clk := rfl
@[simp] theorem driveCmd_cmd (b : Bool) : (drive .cmd b s).cmd = b := rfl
@[simp] theorem driveCmd_att (b : Bool) : (drive .cmd b s).att = s.att := rfl
@[simp] theorem driveCmd_ir (b : Bool) : (drive .cmd b s).ir = s.ir := rfl
@[simp] theorem driveCmd_config (b : Bool) : (drive .cmd b s).config = s.config := rfl
@[simp] theorem driveCmd_dat (b : Bool) : (drive .cmd b s).dat = s.dat := rfl
@[simp] theorem driveCmd_draws (b : Bool) : (drive .cmd b s).draws = s.draws := rfl
@[simp] theorem driveCmd_effects (b : Bool) : (drive .cmd b s).effects = s.effects := rfl
@[simp] theorem driveCmd_issued (b : Bool) : (drive .cmd b s).issued = s.issued := rfl
@[simp] theorem driveCmd_result (b : Bool) : (drive .cmd b s).result = s.result := rfl
@[simp] theorem driveCmd_trace (b : Bool) : (drive .cmd b s).trace = s.trace ++ [.drive .cmd b] := rfl

@[simp] theorem driveAtt_light (b : Bool) : (drive .att b s).light = s.light := rfl
@[simp] theorem driveAtt_throttle (b : Bool) : (drive .att b s).throttle = s.throttle := rfl
@[simp] theorem driveAtt_trimFlag (b : Bool) : (drive .att b s).trimFlag = s.trimFlag := rfl
@[simp] theorem driveAtt_trimMag (b : Bool) : (drive .att b s).trimMag = s.trimMag := rfl
@[simp] theorem driveAtt_cmdTurnRight (b : Bool) : (drive .att b s).cmdTurnRight = s.cmdTurnRight := rfl
@[simp] theorem driveAtt_cmdTurn (b : Bool) : (drive .att b s).cmdTurn = s.cmdTurn := rfl
@[simp] theorem driveAtt_cmdForward (b : Bool) : (drive .att b s).cmdForward = s.cmdForward := rfl
@[simp] theorem driveAtt_cmdTilt (b : Bool) : (drive .att b s).cmdTilt = s.cmdTilt := rfl
@[simp] theorem driveAtt_phase (b : Bool) : (drive .att b s).phase = s.phase := rfl
@[simp] theorem driveAtt_byteIdx (b : Bool) : (drive .att b s).byteIdx = s.byteIdx := rfl
@[simp] theorem driveAtt_bitIdx (b : Bool) : (drive .att b s).bitIdx = s.bitIdx := rfl
@[simp] theorem driveAtt_txShift (b : Bool) : (drive .att b s).txShift = s.txShift := rfl
@[simp] theorem driveAtt_rxShift (b : Bool) : (drive .att b s).rxShift = s.rxShift := rfl
@[simp] theorem driveAtt_resp (b : Bool) : (drive .att b s).resp = s.resp := rfl
@[simp] theorem driveAtt_symIdx (b : Bool) : (drive .att b s).symIdx = s.symIdx := rfl
@[simp] theorem driveAtt_clk (b : Bool) : (drive .att b s).clk = s.clk := rfl
@[simp] theorem driveAtt_cmd (b : Bool) : (drive .att b s).cmd = s.cmd := rfl
@[simp] theorem driveAtt_att (b : Bool) : (drive .att b s).att = b := rfl
@[simp] theorem driveAtt_ir (b : Bool) : (drive .att b s).ir = s.ir := rfl
@[simp] theorem driveAtt_config (b : Bool) : (drive .att b s).config = s.config := rfl
@[simp] theorem driveAtt_dat (b : Bool) : (drive .att b s).dat = s.dat := rfl
@[simp] theorem driveAtt_draws (b : Bool) : (drive .att b s).draws = s.draws := rfl
@[simp] theorem driveAtt_effects (b : Bool) : (drive .att b s).effects = s.effects := rfl
@[simp] theorem driveAtt_issued (b : Bool) : (drive .att b s).issued = s.issued := rfl
@[simp] theorem driveAtt_result (b : Bool) : (drive .att b s).result = s.result := rfl
@[simp] theorem driveAtt_trace (b : Bool) : (drive .att b s).trace = s.trace ++ [.drive .att b] := rfl

@[simp] theorem sample_light : (sample s).light = s.light := rfl
@[simp] theorem sample_throttle : (sample s).throttle = s.throttle := rfl
@[simp] theorem sample_trimFlag : (sample s).trimFlag = s.trimFlag := rfl
@[simp] theorem sample_trimMag : (sample s).trimMag = s.trimMag := rfl
@[simp] theorem sample_cmdTurnRight : (sample s).cmdTurnRight = s.cmdTurnRight := rfl
@[simp] theorem sample_cmdTurn : (sample s).cmdTurn = s.cmdTurn := rfl
@[simp] theorem sample_cmdForward : (sample s).cmdForward = s.cmdForward := rfl
@[simp] theorem sample_cmdTilt : (sample s).cmdTilt = s.cmdTilt := rfl
@[simp] theorem sample_phase : (sample s).phase = s.phase := rfl
@[simp] theorem sample_byteIdx : (sample s).byteIdx = s.byteIdx := rfl
@[simp] theorem sample_bitIdx : (sample s).bitIdx = s.bitIdx := rfl
@[simp] theorem sample_txShift : (sample s).txShift = s.txShift := rfl
@[simp] theorem sample_rxShift : (sample s).rxShift = s.rxShift := rfl
@[simp] theorem sample_resp : (sample s).resp = s.resp := rfl
@[simp] theorem sample_symIdx : (sample s).symIdx = s.symIdx := rfl
@[simp] theorem sample_clk : (sample s).clk = s.clk := rfl
@[simp] theorem sample_cmd : (sample s).cmd = s.cmd := rfl
@[simp] theorem sample_att : (sample s).att = s.att := rfl
@[simp] theorem sample_ir : (sample s).ir = s.ir := rfl
@[simp] theorem sample_config : (sample s).config = s.config := rfl
@[simp] theorem sample_dat : (sample s).dat = s.dat.tail := rfl
@[simp] theorem sample_draws : (sample s).draws = s.draws + 1 := rfl
@[simp] theorem sample_effects : (sample s).effects = s.effects := rfl
@[simp] theorem sample_issued : (sample s).issued = s.issued := rfl
@[simp] theorem sample_result : (sample s).result = s.result := rfl
@[simp] theorem sample_trace : (sample s).trace = s.trace ++ [.sample (nextDraw s)] := rfl

@[simp] theorem wait_light (d : Duration) : (wait d s).light = s.light := rfl
@[simp] theorem wait_throttle (d : Duration) : (wait d s).throttle = s.throttle := rfl
@[simp] theorem wait_trimFlag (d : Duration) : (wait d s).trimFlag = s.trimFlag := rfl
@[simp] theorem wait_trimMag (d : Duration) : (wait d s).trimMag = s.trimMag := rfl
@[simp] theorem wait_cmdTurnRight (d : Duration) : (wait d s).cmdTurnRight = s.cmdTurnRight := rfl
@[simp] theorem wait_cmdTurn (d : Duration) : (wait d s).cmdTurn = s.cmdTurn := rfl
@[simp] theorem wait_cmdForward (d : Duration) : (wait d s).cmdForward = s.cmdForward := rfl
@[simp] theorem wait_cmdTilt (d : Duration) : (wait d s).cmdTilt = s.cmdTilt := rfl
@[simp] theorem wait_phase (d : Duration) : (wait d s).phase = s.phase := rfl
@[simp] theorem wait_byteIdx (d : Duration) : (wait d s).byteIdx = s.byteIdx := rfl
@[simp] theorem wait_bitIdx (d : Duration) : (wait d s).bitIdx = s.bitIdx := rfl
@[simp] theorem wait_txShift (d : Duration) : (wait d s).txShift = s.txShift := rfl
@[simp] theorem wait_rxShift (d : Duration) : (wait d s).rxShift = s.rxShift := rfl
@[simp] theorem wait_resp (d : Duration) : (wait d s).resp = s.resp := rfl
@[simp] theorem wait_symIdx (d : Duration) : (wait d s).symIdx = s.symIdx := rfl
@[simp] theorem wait_clk (d : Duration) : (wait d s).clk = s.clk := rfl
@[simp] theorem wait_cmd (d : Duration) : (wait d s).cmd = s.cmd := rfl
@[simp] theorem wait_att (d : Duration) : (wait d s).att = s.att := rfl
@[simp] theorem wait_ir (d : Duration) : (wait d s).ir = s.ir := rfl
@[simp] theorem wait_config (d : Duration) : (wait d s).config = s.config := rfl
@[simp] theorem wait_dat (d : Duration) : (wait d s).dat = s.dat := rfl
@[simp] theorem wait_draws (d : Duration) : (wait d s).draws = s.draws := rfl
@[simp] theorem wait_effects (d : Duration) : (wait d s).effects = s.effects := rfl
@[simp] theorem wait_issued (d : Duration) : (wait d s).issued = s.issued := rfl
@[simp] theorem wait_result (d : Duration) : (wait d s).result = s.result := rfl
@[simp] theorem wait_trace (d : Duration) : (wait d s).trace = s.trace ++ [.wait d] := rfl

@[simp] theorem driveIr_light (b : Bool) : (driveIr b s).light = s.light := rfl
@[simp] theorem driveIr_throttle (b : Bool) : (driveIr b s).throttle = s.throttle := rfl
@[simp] theorem driveIr_trimFlag (b : Bool) : (driveIr b s).trimFlag = s.trimFlag := rfl
@[simp] theorem driveIr_trimMag (b : Bool) : (driveIr b s).trimMag = s.trimMag := rfl
@[simp] theorem driveIr_cmdTurnRight (b : Bool) : (driveIr b s).cmdTurnRight = s.cmdTurnRight := rfl
@[simp] theorem driveIr_cmdTurn (b : Bool) : (driveIr b s).cmdTurn = s.cmdTurn := rfl
@[simp] theorem driveIr_cmdForward (b : Bool) : (driveIr b s).cmdForward = s.cmdForward := rfl
@[simp] theorem driveIr_cmdTilt (b : Bool) : (driveIr b s).cmdTilt = s.cmdTilt := rfl
@[simp] theorem driveIr_phase (b : Bool) : (driveIr b s).phase = s.phase := rfl
@[simp] theorem driveIr_byteIdx (b : Bool) : (driveIr b s).byteIdx = s.byteIdx := rfl
@[simp] theorem driveIr_bitIdx (b : Bool) : (driveIr b s).bitIdx = s.bitIdx := rfl
@[simp] theorem driveIr_txShift (b : Bool) : (driveIr b s).txShift = s.txShift := rfl
@[simp] theorem driveIr_rxShift (b : Bool) : (driveIr b s).rxShift = s.rxShift := rfl
@[simp] theorem driveIr_resp (b : Bool) : (driveIr b s).resp = s.resp := rfl
@[simp] theorem driveIr_symIdx (b : Bool) : (driveIr b s).symIdx = s.symIdx := rfl
@[simp] theorem driveIr_clk (b : Bool) : (driveIr b s).clk = s.clk := rfl
@[simp] theorem driveIr_cmd (b : Bool) : (driveIr b s).cmd = s.cmd := rfl
@[simp] theorem driveIr_att (b : Bool) : (driveIr b s).att = s.att := rfl
@[simp] theorem driveIr_ir (b : Bool) : (driveIr b s).ir = List.replicate s.config.nEmitters b := rfl
@[simp] theorem driveIr_config (b : Bool) : (driveIr b s).config = s.config := rfl
@[simp] theorem driveIr_dat (b : Bool) : (driveIr b s).dat = s.dat := rfl
@[simp] theorem driveIr_draws (b : Bool) : (driveIr b s).draws = s.draws := rfl
@[simp] theorem driveIr_effects (b : Bool) : (driveIr b s).effects = s.effects := rfl
@[simp] theorem driveIr_issued (b : Bool) : (driveIr b s).issued = s.issued := rfl
@[simp] theorem driveIr_result (b : Bool) : (driveIr b s).result = s.result := rfl
@[simp] theorem driveIr_trace (b : Bool) : (driveIr b s).trace = s.trace := rfl

@[simp] theorem symbolEnds_light : (symbolEnds s).light = s.light := rfl
@[simp] theorem symbolEnds_throttle : (symbolEnds s).throttle = s.throttle := rfl
@[simp] theorem symbolEnds_trimFlag : (symbolEnds s).trimFlag = s.trimFlag := rfl
@[simp] theorem symbolEnds_trimMag : (symbolEnds s).trimMag = s.trimMag := rfl
@[simp] theorem symbolEnds_cmdTurnRight : (symbolEnds s).cmdTurnRight = s.cmdTurnRight := rfl
@[simp] theorem symbolEnds_cmdTurn : (symbolEnds s).cmdTurn = s.cmdTurn := rfl
@[simp] theorem symbolEnds_cmdForward : (symbolEnds s).cmdForward = s.cmdForward := rfl
@[simp] theorem symbolEnds_cmdTilt : (symbolEnds s).cmdTilt = s.cmdTilt := rfl
@[simp] theorem symbolEnds_phase : (symbolEnds s).phase = s.phase := rfl
@[simp] theorem symbolEnds_byteIdx : (symbolEnds s).byteIdx = s.byteIdx := rfl
@[simp] theorem symbolEnds_bitIdx : (symbolEnds s).bitIdx = s.bitIdx := rfl
@[simp] theorem symbolEnds_txShift : (symbolEnds s).txShift = s.txShift := rfl
@[simp] theorem symbolEnds_rxShift : (symbolEnds s).rxShift = s.rxShift := rfl
@[simp] theorem symbolEnds_resp : (symbolEnds s).resp = s.resp := rfl
@[simp] theorem symbolEnds_symIdx : (symbolEnds s).symIdx = s.symIdx + 1 := rfl
@[simp] theorem symbolEnds_clk : (symbolEnds s).clk = s.clk := rfl
@[simp] theorem symbolEnds_cmd : (symbolEnds s).cmd = s.cmd := rfl
@[simp] theorem symbolEnds_att : (symbolEnds s).att = s.att := rfl
@[simp] theorem symbolEnds_ir : (symbolEnds s).ir = s.ir := rfl
@[simp] theorem symbolEnds_config : (symbolEnds s).config = s.config := rfl
@[simp] theorem symbolEnds_dat : (symbolEnds s).dat = s.dat := rfl
@[simp] theorem symbolEnds_draws : (symbolEnds s).draws = s.draws := rfl
@[simp] theorem symbolEnds_effects : (symbolEnds s).effects = s.effects := rfl
@[simp] theorem symbolEnds_issued : (symbolEnds s).issued = s.issued := rfl
@[simp] theorem symbolEnds_result : (symbolEnds s).result = s.result := rfl
@[simp] theorem symbolEnds_trace : (symbolEnds s).trace = s.trace := rfl

@[simp] theorem enter_light (p : Phase) : (enter p s).light = s.light := rfl
@[simp] theorem enter_throttle (p : Phase) : (enter p s).throttle = s.throttle := rfl
@[simp] theorem enter_trimFlag (p : Phase) : (enter p s).trimFlag = s.trimFlag := rfl
@[simp] theorem enter_trimMag (p : Phase) : (enter p s).trimMag = s.trimMag := rfl
@[simp] theorem enter_cmdTurnRight (p : Phase) : (enter p s).cmdTurnRight = s.cmdTurnRight := rfl
@[simp] theorem enter_cmdTurn (p : Phase) : (enter p s).cmdTurn = s.cmdTurn := rfl
@[simp] theorem enter_cmdForward (p : Phase) : (enter p s).cmdForward = s.cmdForward := rfl
@[simp] theorem enter_cmdTilt (p : Phase) : (enter p s).cmdTilt = s.cmdTilt := rfl
@[simp] theorem enter_phase (p : Phase) : (enter p s).phase = p := rfl
@[simp] theorem enter_byteIdx (p : Phase) : (enter p s).byteIdx = s.byteIdx := rfl
@[simp] theorem enter_bitIdx (p : Phase) : (enter p s).bitIdx = s.bitIdx := rfl
@[simp] theorem enter_txShift (p : Phase) : (enter p s).txShift = s.txShift := rfl
@[simp] theorem enter_rxShift (p : Phase) : (enter p s).rxShift = s.rxShift := rfl
@[simp] theorem enter_resp (p : Phase) : (enter p s).resp = s.resp := rfl
@[simp] theorem enter_symIdx (p : Phase) : (enter p s).symIdx = s.symIdx := rfl
@[simp] theorem enter_clk (p : Phase) : (enter p s).clk = s.clk := rfl
@[simp] theorem enter_cmd (p : Phase) : (enter p s).cmd = s.cmd := rfl
@[simp] theorem enter_att (p : Phase) : (enter p s).att = s.att := rfl
@[simp] theorem enter_ir (p : Phase) : (enter p s).ir = s.ir := rfl
@[simp] theorem enter_config (p : Phase) : (enter p s).config = s.config := rfl
@[simp] theorem enter_dat (p : Phase) : (enter p s).dat = s.dat := rfl
@[simp] theorem enter_draws (p : Phase) : (enter p s).draws = s.draws := rfl
@[simp] theorem enter_effects (p : Phase) : (enter p s).effects = s.effects := rfl
@[simp] theorem enter_issued (p : Phase) : (enter p s).issued = s.issued := rfl
@[simp] theorem enter_result (p : Phase) : (enter p s).result = s.result := rfl
@[simp] theorem enter_trace (p : Phase) : (enter p s).trace = s.trace := rfl

@[simp] theorem finishOp_light (r : Result) : (finishOp r s).light = s.light := rfl
@[simp] theorem finishOp_throttle (r : Result) : (finishOp r s).throttle = s.throttle := rfl
@[simp] theorem finishOp_trimFlag (r : Result) : (finishOp r s).trimFlag = s.trimFlag := rfl
@[simp] theorem finishOp_trimMag (r : Result) : (finishOp r s).trimMag = s.trimMag := rfl
@[simp] theorem finishOp_cmdTurnRight (r : Result) : (finishOp r s).cmdTurnRight = s.cmdTurnRight := rfl
@[simp] theorem finishOp_cmdTurn (r : Result) : (finishOp r s).cmdTurn = s.cmdTurn := rfl
@[simp] theorem finishOp_cmdForward (r : Result) : (finishOp r s).cmdForward = s.cmdForward := rfl
@[simp] theorem finishOp_cmdTilt (r : Result) : (finishOp r s).cmdTilt = s.cmdTilt := rfl
@[simp] theorem finishOp_phase (r : Result) : (finishOp r s).phase = .idle := rfl
@[simp] theorem finishOp_byteIdx (r : Result) : (finishOp r s).byteIdx = s.byteIdx := rfl
@[simp] theorem finishOp_bitIdx (r : Result) : (finishOp r s).bitIdx = s.bitIdx := rfl
@[simp] theorem finishOp_txShift (r : Result) : (finishOp r s).txShift = s.txShift := rfl
@[simp] theorem finishOp_rxShift (r : Result) : (finishOp r s).rxShift = s.rxShift := rfl
@[simp] theorem finishOp_resp (r : Result) : (finishOp r s).resp = s.resp := rfl
@[simp] theorem finishOp_symIdx (r : Result) : (finishOp r s).symIdx = s.symIdx := rfl
@[simp] theorem finishOp_clk (r : Result) : (finishOp r s).clk = s.clk := rfl
@[simp] theorem finishOp_cmd (r : Result) : (finishOp r s).cmd = s.cmd := rfl
@[simp] theorem finishOp_att (r : Result) : (finishOp r s).att = s.att := rfl
@[simp] theorem finishOp_ir (r : Result) : (finishOp r s).ir = s.ir := rfl
@[simp] theorem finishOp_config (r : Result) : (finishOp r s).config = s.config := rfl
@[simp] theorem finishOp_dat (r : Result) : (finishOp r s).dat = s.dat := rfl
@[simp] theorem finishOp_draws (r : Result) : (finishOp r s).draws = s.draws := rfl
@[simp] theorem finishOp_effects (r : Result) : (finishOp r s).effects = s.effects := rfl
@[simp] theorem finishOp_issued (r : Result) : (finishOp r s).issued = s.issued := rfl
@[simp] theorem finishOp_result (r : Result) : (finishOp r s).result = r := rfl
@[simp] theorem finishOp_trace (r : Result) : (finishOp r s).trace = s.trace := rfl

end Sys2Proof.Machine
end

