-- ==== Sys2Proof/Laws/Ops.lean ====
section
/-! SUPPORT. What each shared operation does, said once: later proofs cite these and do not unfold the operations. -/

namespace Sys2Proof.Machine

/-! ### ControllerLink -/

/-- Writing bit `i` of a byte changes that bit and no other (R85). -/
theorem getLsbD_writeBit (v : Byte) (i j : Nat) (d : Bool) (hj : j < 8) :
    (writeBit v i d).getLsbD j = if j = i then d else v.getLsbD j := by
  simp only [writeBit, BitVec.getLsbD_or, BitVec.getLsbD_and, BitVec.getLsbD_not, BitVec.getLsbD_shiftLeft,
    BitVec.getLsbD_one, BitVec.getLsbD_setWidth, BitVec.getLsbD_ofBool, hj, decide_true, Bool.true_and]
  by_cases h : j = i
  · subst h; simp
  · by_cases hlt : j < i
    · simp [h, hlt]
    · have h1 : 0 < j - i := by omega
      have h2 : j - i ≠ 0 := by omega
      simp [h, hlt, h2]

/-- One bit exchange (R88): everything it changes. -/
theorem bitExchange_eq (s : State) (i : Nat) :
    bitExchange s i = { s with
      bitIdx := i
      clk := true
      cmd := s.txShift.getLsbD i
      rxShift := writeBit s.rxShift i (nextDraw s)
      dat := s.dat.tail
      draws := s.draws + 1
      trace := s.trace ++ [.drive .clk false, .drive .cmd (s.txShift.getLsbD i), .wait .tHalf,
        .sample (nextDraw s), .drive .clk true, .wait .tHalf] } := by
  simp [bitExchange, sampleIntoRx, drive, sample, wait, emit, nextDraw]

/-- The k-th draw from a state: an answer given, or else a free value (R19). -/
theorem nextDraw_eq (s : State) : nextDraw s = (s.dat[0]?).getD (Config.freeDat s.draws) := by
  unfold nextDraw
  cases s.dat <;> rfl

/-! ### PulseTransmitter -/

/-- A mark and its space (R108): two events, SYMIDX moves by two, the emitters end at 0 (R115). -/
theorem symbolPair_eq (m n : Nat) (s : State) :
    symbolPair m n s = { s with
      ir := List.replicate s.config.nEmitters false
      symIdx := s.symIdx + 2
      trace := s.trace ++ [.mark m, .space n] } := by
  simp [symbolPair, space, mark, symbolEnds, driveIr, emit]

/-- The events of one data bit (R110). -/
def bitSymbols (b : Bool) : List Event :=
  if b then [.mark oneMark, .space oneSpace] else [.mark zeroMark, .space zeroSpace]

/-- One data pair (R110). -/
theorem dataPair_eq (word : TxWord) (s : State) (j : Nat) :
    dataPair word s j = { s with
      ir := List.replicate s.config.nEmitters false
      symIdx := s.symIdx + 2
      trace := s.trace ++ bitSymbols (word.getLsbD j) } := by
  unfold dataPair bitSymbols
  cases word.getLsbD j <;> simp [symbolPair_eq]

/-- A run of data pairs, in the order of the list. -/
theorem foldl_dataPair (word : TxWord) (l : List Nat) (s : State) (h : s.ir = List.replicate s.config.nEmitters false) :
    l.foldl (dataPair word) s = { s with
      symIdx := s.symIdx + 2 * l.length
      trace := s.trace ++ l.flatMap fun j => bitSymbols (word.getLsbD j) } := by
  induction l generalizing s with
  | nil => simp
  | cons j rest ih =>
    rw [List.foldl_cons, dataPair_eq, ih _ rfl]
    simp only [List.length_cons, List.flatMap_cons, List.append_assoc, ← h, State.mk.injEq, true_and, and_true]
    omega

/-! ### ControlStateMachine -/

/-- The throttle after Triangle, as a number (R133). -/
theorem throttleUp_toNat (t : BitVec 8) : (throttleUp t).toNat = min (t.toNat + 3) 255 := by
  simp only [throttleUp, throttleStep, throttleMax, BitVec.toNat_ofNat]
  omega

/-- The throttle after Cross, as a number; subtraction stops at 0 (R134). -/
theorem throttleDown_toNat (t : BitVec 8) : (throttleDown t).toNat = t.toNat - 3 := by
  have h := t.isLt
  simp only [throttleDown, throttleStep, throttleMin, BitVec.toNat_ofInt]
  omega

/-- trimL1 on the dial (R138). -/
theorem dial_trimL1 (f : Bool) (m : BitVec 6) :
    dial (trimL1 f m).1 (trimL1 f m).2 = min (dial f m + 1) 127 := by
  have h := m.isLt
  unfold trimL1 dial
  cases f <;> simp only [trimMagMax, trimMagMin, if_true, Bool.false_eq_true, if_false, Bool.toNat_true, Bool.toNat_false]
  · by_cases hm : m.toNat < 63
    · simp only [hm, if_true, BitVec.toNat_ofNat, Bool.toNat_false]; omega
    · simp only [hm, if_false, BitVec.toNat_ofNat, Bool.toNat_true]; omega
  · simp only [BitVec.toNat_ofNat]; omega

/-- trimR1 on the dial (R138). -/
theorem dial_trimR1 (f : Bool) (m : BitVec 6) :
    dial (trimR1 f m).1 (trimR1 f m).2 = dial f m - 1 := by
  have h := m.isLt
  unfold trimR1 dial
  cases f <;> simp only [trimMagMax, trimMagMin, if_true, Bool.false_eq_true, if_false, Bool.toNat_true, Bool.toNat_false]
  · simp only [BitVec.toNat_ofInt]; omega
  · by_cases hm : 0 < m.toNat
    · simp only [hm, if_true, BitVec.toNat_ofNat, Bool.toNat_true]; omega
    · simp only [hm, if_false, BitVec.toNat_ofNat, Bool.toNat_false]; omega

/-- What no button effect changes: PHASE, the link and transmitter registers, the pins, the build, and the two ends of the
outside world (spec/10_state.md R36). -/
theorem effectOf_frame (b : Button) (s : State) :
    effectOf b s = { s with
      light := (effectOf b s).light
      throttle := (effectOf b s).throttle
      trimFlag := (effectOf b s).trimFlag
      trimMag := (effectOf b s).trimMag
      cmdTurnRight := (effectOf b s).cmdTurnRight
      cmdTurn := (effectOf b s).cmdTurn
      cmdForward := (effectOf b s).cmdForward
      cmdTilt := (effectOf b s).cmdTilt } := by
  cases b <;> rfl

/-- The instruction of a flag's row is that flag's effect. -/
theorem exec_effectInstr (b : Button) (s : State) : exec (effectInstr b) s = .next (effectOf b s) := by
  cases b <;> rfl

/-- The effects of a list of flags keep what every effect keeps. -/
theorem foldl_effects_config (bs : ButtonState) (l : List Button) (s : State) :
    (l.foldl (effectIfPressed bs) s).config = s.config := by
  induction l generalizing s with
  | nil => rfl
  | cons b rest ih =>
    rw [List.foldl_cons, ih]
    unfold effectIfPressed
    split
    · rw [effectOf_frame]
    · rfl

/-! ### The step -/

/-- Everything a step that answers next can do. -/
theorem step_cases {s t : State} (h : step s = .next t) :
    (s.phase = .idle ∧ s.issued = [] ∧ t = s) ∨
    (s.phase = .idle ∧ ∃ w rest i, s.issued = w :: rest ∧ decodeOperation w = .ok i ∧
      exec i { s with issued := rest } = .next t) ∨
    (s.phase = .step ∧ nextFlag s.config.btnPos s.effects = none ∧ t = finishStep s) ∨
    (s.phase = .step ∧ ∃ b, nextFlag s.config.btnPos s.effects = some b ∧
      t = effectOf b { s with effects := s.effects &&& ~~~(s.config.btnPos.mask b) }) := by
  obtain ⟨p, hp⟩ : ∃ p, s.phase = p := ⟨_, rfl⟩
  unfold step at h
  rw [hp] at h
  cases p
  · cases hi : s.issued with
    | nil =>
      simp only [nextIssued, hi, Host.Outcome.next.injEq] at h
      exact .inl ⟨hp, rfl, h.symm⟩
    | cons w rest =>
      simp only [nextIssued, hi] at h
      cases hd : decodeOperation w with
      | error r => simp [hd] at h
      | ok i =>
        simp only [hd] at h
        exact .inr (.inl ⟨hp, w, rest, i, rfl, hd, h⟩)
  · exact absurd h (by simp)
  · cases hf : nextFlag s.config.btnPos s.effects with
    | none =>
      simp only [nextSelected, hf, Host.Outcome.next.injEq] at h
      exact .inr (.inr (.inl ⟨hp, rfl, h.symm⟩))
    | some b =>
      simp only [nextSelected, hf, exec_effectInstr, Host.Outcome.next.injEq] at h
      exact .inr (.inr (.inr ⟨hp, b, rfl, h.symm⟩))
  · exact absurd h (by simp)
  · exact absurd h (by simp)

/-- ENCODE answers next exactly on a legal channel (R105). -/
theorem execEncode_next {c : Command} {s t : State} :
    execEncode c s = .next t ↔ ∃ w, wordOf c = some w ∧ t = { s with phase := .idle, result := .word w } := by
  unfold execEncode
  cases h : wordOf c with
  | none => simp
  | some w => simp [finishOp, enter, eq_comm]

/-- A next state goes on, a stop stops. -/
@[simp] theorem andThen_next (s : State) (f : State → Host.Outcome State Fault Refusal) : andThen (.next s) f = f s := rfl

end Sys2Proof.Machine
end

