-- ==== Sys2Proof/Laws/Control.lean ====
section
/-! SUPPORT. The effects of a STEP, said once: what each flag does where it may or may not be pressed, and what all ten do in
their order; and what placing a code does. -/

namespace Sys2Proof.Machine

/-! ### One flag: every field it may write, `p` saying whether it is pressed -/

def startIf (p : Bool) (s : State) : State :=
  { s with
    light := if p then false else s.light
    throttle := if p then 0#8 else s.throttle }

def selectIf (p : Bool) (s : State) : State :=
  { s with
    light := if p then !s.light else s.light }

def upIf (p : Bool) (s : State) : State :=
  { s with
    cmdForward := if p then true else s.cmdForward
    cmdTilt := if p then neutralTilt else s.cmdTilt }

def downIf (p : Bool) (s : State) : State :=
  { s with
    cmdForward := if p then false else s.cmdForward
    cmdTilt := if p then downTilt else s.cmdTilt }

def leftIf (p : Bool) (s : State) : State :=
  { s with
    cmdTurnRight := if p then false else s.cmdTurnRight
    cmdTurn := if p then fullLeftTurn else s.cmdTurn }

def rightIf (p : Bool) (s : State) : State :=
  { s with
    cmdTurnRight := if p then true else s.cmdTurnRight
    cmdTurn := if p then fullRightTurn else s.cmdTurn }

def l1If (p : Bool) (s : State) : State :=
  { s with
    trimFlag := if p then (trimL1 s.trimFlag s.trimMag).1 else s.trimFlag
    trimMag := if p then (trimL1 s.trimFlag s.trimMag).2 else s.trimMag
    cmdTurnRight := if p then (trimL1 s.trimFlag s.trimMag).1 else s.cmdTurnRight
    cmdTurn := if p then (trimL1 s.trimFlag s.trimMag).2 else s.cmdTurn }

def r1If (p : Bool) (s : State) : State :=
  { s with
    trimFlag := if p then (trimR1 s.trimFlag s.trimMag).1 else s.trimFlag
    trimMag := if p then (trimR1 s.trimFlag s.trimMag).2 else s.trimMag
    cmdTurnRight := if p then (trimR1 s.trimFlag s.trimMag).1 else s.cmdTurnRight
    cmdTurn := if p then (trimR1 s.trimFlag s.trimMag).2 else s.cmdTurn }

def triangleIf (p : Bool) (s : State) : State :=
  { s with
    throttle := if p then throttleUp s.throttle else s.throttle }

def crossIf (p : Bool) (s : State) : State :=
  { s with
    throttle := if p then throttleDown s.throttle else s.throttle }

/-- A flag of the operand, under the build's `BTN_POS`. -/
def flag (bs : ButtonState) (s : State) (b : Button) : Bool := pressed s.config.btnPos bs b

variable (bs : ButtonState) (s : State)

theorem effectIfPressed_start : effectIfPressed bs s .start = startIf (flag bs s .start) s := by
  unfold effectIfPressed startIf flag; cases pressed s.config.btnPos bs .start <;> rfl

theorem effectIfPressed_select : effectIfPressed bs s .select = selectIf (flag bs s .select) s := by
  unfold effectIfPressed selectIf flag; cases pressed s.config.btnPos bs .select <;> rfl

theorem effectIfPressed_up : effectIfPressed bs s .up = upIf (flag bs s .up) s := by
  unfold effectIfPressed upIf flag; cases pressed s.config.btnPos bs .up <;> rfl

theorem effectIfPressed_down : effectIfPressed bs s .down = downIf (flag bs s .down) s := by
  unfold effectIfPressed downIf flag; cases pressed s.config.btnPos bs .down <;> rfl

theorem effectIfPressed_left : effectIfPressed bs s .left = leftIf (flag bs s .left) s := by
  unfold effectIfPressed leftIf flag; cases pressed s.config.btnPos bs .left <;> rfl

theorem effectIfPressed_right : effectIfPressed bs s .right = rightIf (flag bs s .right) s := by
  unfold effectIfPressed rightIf flag; cases pressed s.config.btnPos bs .right <;> rfl

theorem effectIfPressed_l1 : effectIfPressed bs s .l1 = l1If (flag bs s .l1) s := by
  unfold effectIfPressed l1If flag; cases pressed s.config.btnPos bs .l1 <;> rfl

theorem effectIfPressed_r1 : effectIfPressed bs s .r1 = r1If (flag bs s .r1) s := by
  unfold effectIfPressed r1If flag; cases pressed s.config.btnPos bs .r1 <;> rfl

theorem effectIfPressed_triangle : effectIfPressed bs s .triangle = triangleIf (flag bs s .triangle) s := by
  unfold effectIfPressed triangleIf flag; cases pressed s.config.btnPos bs .triangle <;> rfl

theorem effectIfPressed_cross : effectIfPressed bs s .cross = crossIf (flag bs s .cross) s := by
  unfold effectIfPressed crossIf flag; cases pressed s.config.btnPos bs .cross <;> rfl

/-! No effect moves a flag of the operand. -/

@[simp] theorem flag_startIf (p : Bool) (b : Button) : flag bs (startIf p s) b = flag bs s b := rfl
@[simp] theorem flag_selectIf (p : Bool) (b : Button) : flag bs (selectIf p s) b = flag bs s b := rfl
@[simp] theorem flag_upIf (p : Bool) (b : Button) : flag bs (upIf p s) b = flag bs s b := rfl
@[simp] theorem flag_downIf (p : Bool) (b : Button) : flag bs (downIf p s) b = flag bs s b := rfl
@[simp] theorem flag_leftIf (p : Bool) (b : Button) : flag bs (leftIf p s) b = flag bs s b := rfl
@[simp] theorem flag_rightIf (p : Bool) (b : Button) : flag bs (rightIf p s) b = flag bs s b := rfl
@[simp] theorem flag_l1If (p : Bool) (b : Button) : flag bs (l1If p s) b = flag bs s b := rfl
@[simp] theorem flag_r1If (p : Bool) (b : Button) : flag bs (r1If p s) b = flag bs s b := rfl
@[simp] theorem flag_triangleIf (p : Bool) (b : Button) : flag bs (triangleIf p s) b = flag bs s b := rfl
@[simp] theorem flag_crossIf (p : Bool) (b : Button) : flag bs (crossIf p s) b = flag bs s b := rfl

@[simp] theorem flag_beginStep (bs' : ButtonState) (b : Button) : flag bs (beginStep bs' s) b = flag bs s b := rfl

/-! ### All ten -/

/-- The trim after L1, if it is pressed. -/
def trimAfterL1 : Bool × BitVec 6 :=
  if flag bs s .l1 then trimL1 s.trimFlag s.trimMag else (s.trimFlag, s.trimMag)

/-- The trim after L1 and R1. -/
def trimAfter : Bool × BitVec 6 :=
  if flag bs s .r1 then trimR1 (trimAfterL1 bs s).1 (trimAfterL1 bs s).2 else trimAfterL1 bs s

/-- THROTTLE after Start, Triangle and Cross. -/
def throttleAfter : BitVec 8 :=
  let t := if flag bs s .start then 0#8 else s.throttle
  let t := if flag bs s .triangle then throttleUp t else t
  if flag bs s .cross then throttleDown t else t

/-- The ten effects as one composition (R124). -/
theorem runEffects_comp : runEffects bs s =
    crossIf (flag bs s .cross) (triangleIf (flag bs s .triangle) (r1If (flag bs s .r1) (l1If (flag bs s .l1)
      (rightIf (flag bs s .right) (leftIf (flag bs s .left) (downIf (flag bs s .down) (upIf (flag bs s .up)
        (selectIf (flag bs s .select) (startIf (flag bs s .start) s))))))))) := by
  simp only [runEffects, effectOrder, List.foldl_cons, List.foldl_nil, effectIfPressed_start, effectIfPressed_select,
    effectIfPressed_up, effectIfPressed_down, effectIfPressed_left, effectIfPressed_right, effectIfPressed_l1,
    effectIfPressed_r1, effectIfPressed_triangle, effectIfPressed_cross, flag_startIf, flag_selectIf, flag_upIf,
    flag_downIf, flag_leftIf, flag_rightIf, flag_l1If, flag_r1If, flag_triangleIf]

/-- Everything the ten effects write (R124). -/
theorem runEffects_eq : runEffects bs s = { s with
    light := if flag bs s .select then !(if flag bs s .start then false else s.light)
      else if flag bs s .start then false else s.light
    throttle := throttleAfter bs s
    trimFlag := (trimAfter bs s).1
    trimMag := (trimAfter bs s).2
    cmdTurnRight := if flag bs s .r1 then (trimAfter bs s).1 else if flag bs s .l1 then (trimAfterL1 bs s).1
      else if flag bs s .right then true else if flag bs s .left then false else s.cmdTurnRight
    cmdTurn := if flag bs s .r1 then (trimAfter bs s).2 else if flag bs s .l1 then (trimAfterL1 bs s).2
      else if flag bs s .right then fullRightTurn else if flag bs s .left then fullLeftTurn else s.cmdTurn
    cmdForward := if flag bs s .down then false else if flag bs s .up then true else s.cmdForward
    cmdTilt := if flag bs s .down then downTilt else if flag bs s .up then neutralTilt else s.cmdTilt } := by
  rw [runEffects_comp]
  unfold throttleAfter trimAfter trimAfterL1
  cases flag bs s .l1 <;> cases flag bs s .r1 <;> rfl

/-! ### Placing a code -/

@[simp] theorem placeCode_operation (w : OpWord) :
    placeCode (.operation w) s = { s with phase := .idle, issued := w :: s.issued } := rfl

@[simp] theorem placeCode_effect : placeCode (.effect bs) s = placeOperand bs s := rfl

/-- Outside a STEP, a ButtonState begins one (R123). -/
theorem placeOperand_begins (h : s.phase ≠ .step) : placeOperand bs s = beginStep bs s := if_neg h

/-- Inside a STEP, that STEP goes on. -/
theorem placeOperand_goes_on (h : s.phase = .step) : placeOperand bs s = { s with effects := bs } := if_pos h

@[simp] theorem placeOperand_phase : (placeOperand bs s).phase = .step := by
  unfold placeOperand
  split <;> first | assumption | rfl

@[simp] theorem placeOperand_effects : (placeOperand bs s).effects = bs := by
  unfold placeOperand
  split <;> rfl

/-- The start of a STEP forgets the transient fields (R43). -/
theorem beginStep_ignores_stale (r : Bool) (t : BitVec 6) (f : Bool) (l : BitVec 5) :
    beginStep bs { s with cmdTurnRight := r, cmdTurn := t, cmdForward := f, cmdTilt := l } = beginStep bs s := rfl

end Sys2Proof.Machine
end

