-- ==== Sys2Proof/Laws/Encoding.lean ====
section
/-! SUPPORT. What the decoder, the encoder and the operand assembly do, said once per function. -/

namespace Sys2Proof

/-- A flag's mask has exactly the flag's bit. -/
theorem getLsbD_mask (p : BtnPos) (b : Button) (i : Nat) :
    (p.mask b).getLsbD i = decide (i = (p.bit b).val) := by
  have h := (p.bit b).isLt
  simp only [BtnPos.mask, BitVec.getLsbD_shiftLeft, BitVec.getLsbD_one]
  by_cases hi : i = (p.bit b).val
  · subst hi; simp [h]
  · simp only [hi, decide_false]
    by_cases h2 : i < (p.bit b).val
    · simp [h2]
    · have : i - (p.bit b).val ≠ 0 := by omega
      simp [this]

/-- On the mask of one flag, exactly the flags on the same bit are pressed. -/
theorem pressed_mask (p : BtnPos) (b b' : Button) :
    pressed p (p.mask b) b' = decide (p.bit b' = p.bit b) := by
  simp only [pressed, getLsbD_mask, Fin.ext_iff]

/-- Every flag is in the selection order. -/
theorem mem_selectionOrder (b : Button) : b ∈ selectionOrder := by
  cases b <;> decide

/-- A legal `BTN_POS` puts two flags on one bit only if they are the same flag. -/
theorem BtnPos.bit_inj {p : BtnPos} (h : p.wf = true) {b b' : Button} (hb : p.bit b = p.bit b') : b = b' := by
  have hn : (selectionOrder.map p.bit).Nodup := by simpa [BtnPos.wf] using h
  exact List.inj_on_of_nodup_map hn (mem_selectionOrder b) (mem_selectionOrder b') hb

/-- The next flag is pressed, and no flag before it in the order is. -/
theorem nextFlag_some {p : BtnPos} {bs : ButtonState} {b : Button} (h : nextFlag p bs = some b) :
    pressed p bs b = true :=
  by simpa using List.find?_some h

/-- There is no next flag exactly when no flag is pressed. -/
theorem nextFlag_none {p : BtnPos} {bs : ButtonState} :
    nextFlag p bs = none ↔ ∀ b, pressed p bs b = false := by
  simp only [nextFlag, List.find?_eq_none]
  exact ⟨fun h b => by simpa using h b (mem_selectionOrder b), fun h b _ => by simp [h b]⟩

/-- Clearing one flag's bit releases that flag and, on a legal `BTN_POS`, no other. -/
theorem pressed_clear {p : BtnPos} (h : p.wf = true) (bs : ButtonState) (b b' : Button) :
    pressed p (bs &&& ~~~(p.mask b)) b' = (pressed p bs b' && decide (b' ≠ b)) := by
  have hlt := (p.bit b').isLt
  simp only [pressed, BitVec.getLsbD_and, BitVec.getLsbD_not, getLsbD_mask, hlt, decide_true, Bool.true_and]
  by_cases hb : b' = b
  · simp [hb]
  · have : (p.bit b').val ≠ (p.bit b).val := fun e => hb (BtnPos.bit_inj h (Fin.ext e))
    simp [hb, this]

/-- The operand field of ENCODE keeps every field of the Command. -/
theorem unpackCommand_packCommand (c : Command) : unpackCommand (packCommand c) = c := by
  rcases c with ⟨ch, li, th, tr, tu, fo, ti⟩
  simp only [unpackCommand, packCommand, Command.mk.injEq]
  refine ⟨?_, ?_, ?_, ?_, ?_, ?_, ?_⟩
  all_goals
    first
    | (apply BitVec.eq_of_getLsbD_eq
       intro i hi
       simp only [BitVec.getLsbD_extractLsb', BitVec.getLsbD_append, BitVec.getLsbD_ofBool, BitVec.getLsbD_zero]
       interval_cases i <;> simp)
    | (simp only [BitVec.getLsbD_append, BitVec.getLsbD_ofBool]
       simp)

/-- Which channel values have a body (R100): all but 0. -/
theorem channelBody_isSome (ch : BitVec 2) (body : Body) : (channelBody ch body).isSome = (ch != 0#2) := by
  unfold channelBody
  have : ch = 0#2 ∨ ch = 1#2 ∨ ch = 2#2 ∨ ch = 3#2 := by revert ch; decide
  rcases this with h | h | h | h <;> subst h <;> rfl

/-- A command has a word exactly when its channel is legal. -/
theorem wordOf_isSome (c : Command) : (wordOf c).isSome = c.wf := by
  simp [wordOf, bodyOf, channelBody_isSome, Command.wf]

/-- A nibble is at most 15, so the sum of six is at most 90 (R101). -/
theorem nibbleSum_le (body : Body) : nibbleSum body ≤ 90 := by
  have h : ∀ j, bodyNibble body j ≤ 15 := fun j => by
    have := (body.extractLsb' (4 * j) 4).isLt
    unfold bodyNibble
    omega
  have h0 := h 0; have h1 := h 1; have h2 := h 2; have h3 := h 3; have h4 := h 4; have h5 := h 5
  unfold nibbleSum
  omega

/-- The checksum is the number the formula of R101 gives. -/
theorem checksumOf_toNat (body : Body) : (checksumOf body).toNat = (16 - nibbleSum body % 16) % 16 := by
  simp [checksumOf]

/-- The bits of a word (R102): the checksum below, the body above. -/
theorem getLsbD_assembleWord (body : Body) (k : Nibble) (i : Nat) :
    (assembleWord body k).getLsbD i = if i < 4 then k.getLsbD i else body.getLsbD (i - 4) := by
  simp only [assembleWord, BitVec.getLsbD_or, BitVec.getLsbD_shiftLeft, BitVec.getLsbD_setWidth]
  by_cases h : i < 4
  · have h28 : i < 28 := by omega
    simp [h, h28]
  · have hk : k.getLsbD i = false := BitVec.getLsbD_of_ge k i (by omega)
    by_cases h28 : i < 28
    · have h24 : i - 4 < 28 := by omega
      simp [h, h28, h24, hk]
    · have hb : body.getLsbD (i - 4) = false := BitVec.getLsbD_of_ge body (i - 4) (by omega)
      simp [h, h28, hb]

/-- The four values of OPSEL (R65). -/
theorem opsel_cases (w : OpWord) : opsel w = 0#2 ∨ opsel w = 1#2 ∨ opsel w = 2#2 ∨ opsel w = 3#2 := by
  generalize opsel w = x
  revert x
  decide

/-! The operation each OPSEL selects (R65). -/

theorem operationOf_poll {w : OpWord} (h : opsel w = 0#2) : operationOf w = .poll := by
  unfold operationOf; rw [h]; rfl

theorem operationOf_step {w : OpWord} (h : opsel w = 1#2) : operationOf w = .step (w.extractLsb' 0 16) := by
  unfold operationOf; rw [h]; rfl

theorem operationOf_encode {w : OpWord} (h : opsel w = 2#2) :
    operationOf w = .encode (unpackCommand (w.extractLsb' 0 26)) := by
  unfold operationOf; rw [h]; rfl

theorem operationOf_transmit {w : OpWord} (h : opsel w = 3#2) : operationOf w = .transmit (w.extractLsb' 0 28) := by
  unfold operationOf; rw [h]; rfl

/-- The decoder accepts a word exactly when no reserved bit is set and an ENCODE word has a channel (R72). -/
theorem decodeOperation_ok {w : OpWord} {i : Instr} :
    decodeOperation w = .ok i ↔ w &&& reservedMask (opsel w) = 0#32 ∧
      ¬(opsel w = 0b10#2 ∧ w.extractLsb' 24 2 = 0#2) ∧ i = operationOf w := by
  unfold decodeOperation
  split
  · rename_i h1
    split
    · rename_i h2
      exact ⟨(nomatch ·), fun h => absurd h2 h.2.1⟩
    · rename_i h2
      exact ⟨fun h => ⟨h1, h2, (Except.ok.inj h).symm⟩, fun h => congrArg Except.ok h.2.2.symm⟩
  · rename_i h1
    exact ⟨(nomatch ·), fun h => absurd h.1 h1⟩

/-- A word with no reserved bit set is 0 on every bit of the reserved mask (R67 to R70). -/
theorem reserved_clear {w : OpWord} (h : w &&& reservedMask (opsel w) = 0#32) (i : Nat) :
    (w.getLsbD i && (reservedMask (opsel w)).getLsbD i) = false := by
  rw [← BitVec.getLsbD_and, h, BitVec.getLsbD_zero]

/-- The two bits of OPSEL. -/
theorem getLsbD_opsel (w : OpWord) (i : Nat) (hi : i < 2) : (opsel w).getLsbD i = w.getLsbD (30 + i) := by
  simp only [opsel, BitVec.getLsbD_extractLsb', hi, decide_true, Bool.true_and]

end Sys2Proof
end

