-- ==== Sys2Proof/Laws/Link.lean ====
section
/-! SUPPORT. The loops of POLL, said once: what a run of bit exchanges and one byte exchange do. -/

namespace Sys2Proof.Machine

/-- The n-th draw from a state on (R19). -/
def laterDraw (s : State) (n : Nat) : Bool :=
  (s.dat[n]?).getD (Config.freeDat (s.draws + n))

/-- RXSHIFT after the first n bit exchanges of a byte (R85). -/
def rxAfter (s : State) (n : Nat) : Byte :=
  (List.range n).foldl (fun v i => writeBit v i (laterDraw s i)) s.rxShift

/-- The events of one bit exchange (R88). -/
def exchangeEvents (out answer : Bool) : List Event :=
  [.drive .clk false, .drive .cmd out, .wait .tHalf, .sample answer, .drive .clk true, .wait .tHalf]

/-- After n samples the next draw is the n-th. -/
theorem nextDraw_later {s t : State} {n : Nat} (hd : t.dat = s.dat.drop n) (hc : t.draws = s.draws + n) :
    nextDraw t = laterDraw s n := by
  rw [nextDraw_eq, laterDraw, hd, hc, List.getElem?_drop, Nat.add_zero]

/-- The first n + 1 bit exchanges of a byte: everything they change. -/
theorem foldl_bitExchange (s : State) (n : Nat) :
    (List.range (n + 1)).foldl bitExchange s = { s with
      bitIdx := n
      clk := true
      cmd := s.txShift.getLsbD n
      rxShift := rxAfter s (n + 1)
      dat := s.dat.drop (n + 1)
      draws := s.draws + (n + 1)
      trace := s.trace ++ (List.range (n + 1)).flatMap fun i => exchangeEvents (s.txShift.getLsbD i) (laterDraw s i) } := by
  induction n with
  | zero =>
    simp [bitExchange_eq, rxAfter, laterDraw, nextDraw_eq, exchangeEvents, List.drop_one]
  | succ n ih =>
    rw [List.range_succ, List.foldl_append, ih, List.foldl_cons, List.foldl_nil, bitExchange_eq,
      nextDraw_later (s := s) rfl rfl]
    simp only [rxAfter, List.range_succ, List.foldl_append, List.foldl_cons, List.foldl_nil, List.flatMap_append,
      List.flatMap_cons, List.flatMap_nil, exchangeEvents, List.append_assoc, List.append_nil, List.tail_drop,
      Nat.add_assoc]

/-- Bit j of RXSHIFT after a whole byte is the j-th sample (spec/20_memory.md R50). -/
theorem getLsbD_rxAfter (s : State) (n j : Nat) (hj : j < 8) :
    (rxAfter s n).getLsbD j = if j < n then laterDraw s j else s.rxShift.getLsbD j := by
  induction n with
  | zero => simp [rxAfter]
  | succ n ih =>
    have h : rxAfter s (n + 1) = writeBit (rxAfter s n) n (laterDraw s n) := by
      simp [rxAfter, List.range_succ]
    rw [h, getLsbD_writeBit _ _ _ _ hj, ih]
    by_cases hjn : j = n
    · subst hjn; simp
    · have : j < n + 1 ↔ j < n := by omega
      simp [hjn, this]

/-- One byte exchange (R87): everything it changes. -/
theorem byteExchange_eq (s : State) (k : Nat) :
    byteExchange s k = { s with
      byteIdx := k
      bitIdx := 7
      txShift := linkTx k
      rxShift := rxAfter (beginByte k s) 8
      resp := s.resp.setIfInBounds (k - 1) (rxAfter (beginByte k s) 8)
      clk := true
      cmd := (linkTx k).getLsbD 7
      dat := s.dat.drop 8
      draws := s.draws + 8
      trace := s.trace
        ++ ((List.range 8).flatMap fun i => exchangeEvents ((linkTx k).getLsbD i) (laterDraw s i))
        ++ (if k < 5 then [.wait .tByteGap] else []) } := by
  unfold byteExchange
  rw [foldl_bitExchange (beginByte k s) 7]
  by_cases h : k < 5
  · simp only [h, if_true]; rfl
  · simp only [h, if_false, List.append_nil]; rfl

end Sys2Proof.Machine
end

