-- ==== Sys2Proof/Laws/PerInstr.lean ====
section
/-! SUPPORT. The family TableRow: every instruction's encoding lies in its own row of spec/opcode_table.json, one lemma per
constructor. -/

namespace Sys2Proof.Laws.TableRow

/-- "match" and "mask" of an instruction's row of the opcode table. -/
def row (i : Instr) : Nat × Nat :=
  match i with
  | .poll => (0x00000000, 0xFFFFFFFF)
  | .step _ => (0x40000000, 0xFFFF0000)
  | .encode _ => (0x80000000, 0xFC008080)
  | .transmit _ => (0xC0000000, 0xF0000000)
  | .btnRight => (0x0001, 0x0001)
  | .btnDown => (0x0002, 0x0002)
  | .btnLeft => (0x0004, 0x0004)
  | .btnUp => (0x0008, 0x0008)
  | .btnStart => (0x0010, 0x0010)
  | .btnSelect => (0x0020, 0x0020)
  | .btnSquare => (0x0040, 0x0040)
  | .btnCross => (0x0080, 0x0080)
  | .btnCircle => (0x0100, 0x0100)
  | .btnTriangle => (0x0200, 0x0200)
  | .btnR1 => (0x0400, 0x0400)
  | .btnL1 => (0x0800, 0x0800)
  | .btnR2 => (0x1000, 0x1000)
  | .btnL2 => (0x2000, 0x2000)
  | .btnUnused14 => (0x4000, 0x4000)
  | .btnUnused15 => (0x8000, 0x8000)

/-- The code of an instruction matches a row under its mask. -/
def Matches (code : Code) (r : Nat × Nat) : Prop :=
  match code with
  | .operation w => w &&& BitVec.ofNat 32 r.2 = BitVec.ofNat 32 r.1
  | .effect bs => bs &&& BitVec.ofNat 16 r.2 = BitVec.ofNat 16 r.1

/-- Under the default `BTN_POS`, which the table assumes, the encoding of an instruction has its row's fixed bits. -/
def Statement (i : Instr) : Prop :=
  Matches (encode BtnPos.default i) (row i)

theorem poll : Statement .poll := rfl

theorem step (bs : ButtonState) : Statement (.step bs) := by
  simp only [Statement, Matches, encode, row, operationWord]
  apply BitVec.eq_of_getLsbD_eq
  intro i hi
  simp only [BitVec.getLsbD_and, BitVec.getLsbD_append, BitVec.getLsbD_setWidth, BitVec.getLsbD_ofNat]
  interval_cases i <;> simp [Nat.testBit]

theorem encode (c : Command) : Statement (.encode c) := by
  simp only [Statement, Matches, Sys2Proof.encode, row, operationWord, packCommand]
  apply BitVec.eq_of_getLsbD_eq
  intro i hi
  simp only [BitVec.getLsbD_and, BitVec.getLsbD_append, BitVec.getLsbD_setWidth, BitVec.getLsbD_ofNat]
  interval_cases i <;> simp [Nat.testBit]

theorem transmit (word : TxWord) : Statement (.transmit word) := by
  simp only [Statement, Matches, Sys2Proof.encode, row, operationWord]
  apply BitVec.eq_of_getLsbD_eq
  intro i hi
  simp only [BitVec.getLsbD_and, BitVec.getLsbD_append, BitVec.getLsbD_setWidth, BitVec.getLsbD_ofNat]
  interval_cases i <;> simp [Nat.testBit]

theorem btnRight : Statement .btnRight := rfl

theorem btnDown : Statement .btnDown := rfl

theorem btnLeft : Statement .btnLeft := rfl

theorem btnUp : Statement .btnUp := rfl

theorem btnStart : Statement .btnStart := rfl

theorem btnSelect : Statement .btnSelect := rfl

theorem btnSquare : Statement .btnSquare := rfl

theorem btnCross : Statement .btnCross := rfl

theorem btnCircle : Statement .btnCircle := rfl

theorem btnTriangle : Statement .btnTriangle := rfl

theorem btnR1 : Statement .btnR1 := rfl

theorem btnL1 : Statement .btnL1 := rfl

theorem btnR2 : Statement .btnR2 := rfl

theorem btnL2 : Statement .btnL2 := rfl

theorem btnUnused14 : Statement .btnUnused14 := rfl

theorem btnUnused15 : Statement .btnUnused15 := rfl

end Sys2Proof.Laws.TableRow
end

