-- ==== Sys2Proof/Tests/Slice0.lean ====
section
/-! SUPPORT. The model's own tests, each one step on a small state, and a witness for the hypotheses of every statement. The
expected values are those of spec/95_test_vectors.md, whose part is named, or a hand calculation from the rule named. -/

namespace Sys2Proof.Tests

open Sys2Proof.Machine Sys2Proof.Spec

/-! ### Helpers -/

/-- What a property says of the next state; false where there is none. -/
def nextIs (o : Host.Outcome State Fault Refusal) (f : State → Bool) : Bool :=
  match o with
  | .next s => f s
  | .fault _ => false
  | .refused _ => false

/-- The step was refused for this reason. -/
def refusedAs (o : Host.Outcome State Fault Refusal) (r : Refusal) : Bool :=
  match o with
  | .next _ => false
  | .fault _ => false
  | .refused r' => r' = r

/-- A state (LIGHT, THROTTLE, TRIM_FLAG, TRIM_MAG) of the vectors. -/
def seed (light : Bool) (throttle : Nat) (flag : Bool) (mag : Nat) : State :=
  { State.reset with light := light, throttle := BitVec.ofNat 8 throttle, trimFlag := flag, trimMag := BitVec.ofNat 6 mag }

/-- The tuple of a state. -/
def tuple (s : State) : Bool × Nat × Bool × Nat := (s.light, s.throttle.toNat, s.trimFlag, s.trimMag.toNat)

/-- The bits of a byte, LSB first. -/
def lsbFirst (v : Byte) : List Bool := (List.range 8).map v.getLsbD

/-- The reset state with a controller that answers these five bytes. -/
def answering (a b c d e : Byte) : State :=
  { State.reset with dat := lsbFirst a ++ lsbFirst b ++ lsbFirst c ++ lsbFirst d ++ lsbFirst e }

/-- A timing at the bounds of R11. -/
def minTiming : Timing := ⟨1, 0, 0, 0, 1, 2, 1, 0⟩

/-- A build that meets every bound of R11 at its edge, so that its legality can be decided. -/
def minConfig : Config := { Config.default with channel := 3#2, timing := minTiming }

/-- The reset state of that build. -/
def minState : State := State.resetWith minConfig

/-! ### WellFormed: each check refuses an ill-formed term -/

theorem test_wf_refuses_channel_zero : (Instr.encode ⟨0#2, false, 0#8, false, 63#6, false, 31#5⟩).wf = false := by decide
theorem test_wf_refuses_two_flags_on_one_bit : (BtnPos.wf { BtnPos.default with left := 0 }) = false := by decide
theorem test_wf_refuses_no_half_period : (Timing.wf { minTiming with tHalf := 0 }) = false := by decide
theorem test_wf_refuses_no_unit : (Timing.wf { minTiming with tUnit := 0 }) = false := by decide
theorem test_wf_refuses_no_carrier_off : (Timing.wf { minTiming with tCarrierOff := 0 }) = false := by decide
theorem test_wf_refuses_on_not_longer_than_off : (Timing.wf { minTiming with tCarrierOn := 1 }) = false := by decide
theorem test_wf_refuses_build_channel_zero : (Config.wf { minConfig with channel := 0#2 }) = false := by decide
theorem test_wf_refuses_no_emitter : (Config.wf { minConfig with nEmitters := 0 }) = false := by decide
theorem test_wf_accepts_min_build : minConfig.wf = true := by decide
theorem test_wf_accepts_default_build : Config.default.wf = true := by
  simp [Config.wf, Config.default, Timing.wf, Timing.unstated]
  decide

/-! ### Decode: words written out from the encodings of R67 to R70 and the table's ButtonState rows -/

theorem test_decode_poll : decodeOperation 0b00000000000000000000000000000000#32 = .ok .poll := by decide
theorem test_decode_step : decodeOperation 0b01000000000000001111000101000000#32 = .ok (.step 0xF140#16) := by decide
theorem test_decode_encode : decodeOperation 0b10000010001100000010100001111111#32
    = .ok (.encode ⟨2#2, true, 48#8, false, 40#6, true, 31#5⟩) := by decide
theorem test_decode_transmit : decodeOperation 0b11000101101001010101110010100001#32 = .ok (.transmit 0x5A55CA1#28) := by decide
theorem test_decode_button_rows : [0, 1, 2, 3, 4, 5, 6, 7, 8, 9, 10, 11, 12, 13, 14, 15].map (fun i => decodeTableWord 16 (2 ^ i))
    = [some .btnRight, some .btnDown, some .btnLeft, some .btnUp, some .btnStart, some .btnSelect, some .btnSquare,
       some .btnCross, some .btnCircle, some .btnTriangle, some .btnR1, some .btnL1, some .btnR2, some .btnL2,
       some .btnUnused14, some .btnUnused15] := by decide
theorem test_decode_first_flag_in_order : decodeTableWord 16 0x0281 = some .btnRight := by decide
theorem test_decode_no_flag : decodeTableWord 16 0 = none := by decide
/-- Refused words of L2.2, L2.3, L2.4. -/
theorem test_decode_refused : [0x81003F9F#32, 0x8100BF1F#32, 0x85003F1F#32, 0xD0000000#32, 0xE003F9F6#32, 0x40010000#32,
    0x7FFF0000#32, 0x00000001#32].all (fun w => decodeOperation w matches .error .reservedBitSet) = true := by decide
theorem test_decode_channel_zero : decodeOperation 0x80003F1F#32 = .error .channelZero := by decide
theorem test_encode_word : encode BtnPos.default (.encode ⟨3#2, true, 1#8, false, 1#6, false, 1#5⟩)
    = .operation 0x83010141#32 := by decide
theorem test_fetch_word_runs : nextIs (step (State.reset.withFetchWord 32 0x40000800)) (fun t => tuple t = (false, 0, true, 0))
    = true := by decide
theorem test_fetch_effect_runs : nextIs (step (State.reset.withFetchWord 16 0x0010)) (fun t => t.effects = 0#16 ∧ t.phase = .step)
    = true := by decide
/-- R43, R123: a ButtonState placed at reset stands in a STEP whose per-cycle reset is done, so the Command it returns holds the
trim (0, 63) and tilt 31, not what the transient fields held. -/
theorem test_placed_effect_is_in_a_begun_step : nextIs (step ({ State.reset with cmdTilt := 9#5 }.withFetchWord 16 0))
    (fun t => t.result = .command ⟨1#2, false, 0#8, false, 63#6, false, 31#5⟩) = true := by decide
theorem test_refused_word_stops : refusedAs (step (State.reset.withFetchWord 32 0x85003F1F)) .reservedBitSet = true := by decide
theorem test_reset_idles : nextIs (step State.reset) (fun t => t.issued = [] ∧ t.trace = []) = true := by decide

/-! ### POLL (L2.1) -/

set_option maxRecDepth 8000 in
theorem test_poll_start_pressed : nextIs (exec .poll (answering 0x00#8 0x00#8 0x00#8 0xEF#8 0xFF#8))
    (fun t => t.result = .buttonState 0x0010#16 ∧ t.trace.length = 248) = true := by decide
set_option maxRecDepth 8000 in
theorem test_poll_mixed : nextIs (exec .poll (answering 0x00#8 0x00#8 0x00#8 0x5A#8 0xA5#8))
    (fun t => t.result = .buttonState 0x5AA5#16 ∧ t.resp = #v[0#8, 0#8, 0#8, 0x5A#8, 0xA5#8]) = true := by decide

/-! ### STEP (L2.4) -/

theorem test_step_every_bit : nextIs (exec (.step 0xFFFF#16) (seed true 100 true 5))
    (fun t => tuple t = (true, 0, true, 5) ∧ t.result = .command ⟨1#2, true, 0#8, true, 5#6, false, 0#5⟩) = true := by decide
theorem test_step_right_and_r1 : nextIs (exec (.step 0x0401#16) (seed false 0 false 63))
    (fun t => tuple t = (false, 0, false, 62) ∧ t.result = .command ⟨1#2, false, 0#8, false, 62#6, false, 31#5⟩) = true := by
  decide

/-! ### ENCODE (L2.2) -/

theorem test_encode_channel_one : nextIs (exec (.encode ⟨1#2, true, 90#8, true, 21#6, false, 10#5⟩) State.reset)
    (fun t => t.result = .word 0x5A55CA1#28) = true := by decide
theorem test_encode_largest_sum : nextIs (exec (.encode ⟨3#2, true, 255#8, true, 63#6, true, 31#5⟩) State.reset)
    (fun t => t.result = .word 0xFFFFFF6#28) = true := by decide

/-! ### TRANSMIT (L2.3) -/

theorem test_transmit_frame : nextIs (exec (.transmit 0x003F9F6#28) State.reset) (fun t => t.trace.map eventUnits =
    [34, 22, 34, 22] ++ [14, 18, 14, 18, 14, 18, 14, 18, 14, 18, 14, 18, 14, 18, 14, 18, 14, 18, 14, 18]
    ++ [30, 34, 30, 34, 30, 34, 30, 34, 30, 34, 30, 34, 30, 34] ++ [14, 18, 14, 18]
    ++ [30, 34, 30, 34, 30, 34, 30, 34, 30, 34] ++ [14, 18, 30, 34, 30, 34, 14, 18] ++ [30, 34]) = true := by decide
theorem test_transmit_units : nextIs (exec (.transmit 0x8000000#28) State.reset)
    (fun t => traceUnits t.trace = 1104 ∧ t.ir = [false] ∧ t.symIdx = 62) = true := by decide

/-! ### The button effects (R125 to R137) -/

theorem test_btnStart : nextIs (exec .btnStart (seed true 200 false 63)) (fun t => tuple t = (false, 0, false, 63)) = true := by decide
theorem test_btnSelect : nextIs (exec .btnSelect (seed true 0 false 63)) (fun t => tuple t = (false, 0, false, 63)) = true := by decide
theorem test_btnUp : nextIs (exec .btnUp State.reset) (fun t => t.cmdForward ∧ t.cmdTilt = 31#5) = true := by decide
theorem test_btnDown : nextIs (exec .btnDown { State.reset with cmdForward := true, cmdTilt := 31#5 })
    (fun t => t.cmdForward = false ∧ t.cmdTilt = 0#5) = true := by decide
theorem test_btnLeft : nextIs (exec .btnLeft { seed false 0 true 9 with cmdTurnRight := true, cmdTurn := 9#6 })
    (fun t => t.cmdTurnRight = false ∧ t.cmdTurn = 0#6 ∧ t.trimMag = 9#6) = true := by decide
theorem test_btnRight : nextIs (exec .btnRight State.reset) (fun t => t.cmdTurnRight ∧ t.cmdTurn = 63#6 ∧ t.trimFlag = false)
    = true := by decide
theorem test_btnL1_flips : nextIs (exec .btnL1 (seed false 0 false 63)) (fun t => tuple t = (false, 0, true, 0) ∧ t.cmdTurnRight)
    = true := by decide
theorem test_btnL1_saturates : nextIs (exec .btnL1 (seed false 0 true 63)) (fun t => tuple t = (false, 0, true, 63)) = true := by
  decide
theorem test_btnR1_flips : nextIs (exec .btnR1 (seed false 0 true 0)) (fun t => tuple t = (false, 0, false, 63) ∧ t.cmdTurn = 63#6)
    = true := by decide
theorem test_btnR1_saturates : nextIs (exec .btnR1 (seed false 0 false 0)) (fun t => tuple t = (false, 0, false, 0)) = true := by
  decide
theorem test_btnTriangle_clamps : nextIs (exec .btnTriangle (seed false 253 false 63)) (fun t => t.throttle = 255#8) = true := by
  decide
theorem test_btnCross_clamps : nextIs (exec .btnCross (seed false 2 false 63)) (fun t => t.throttle = 0#8) = true := by decide
theorem test_no_effect_flags : [Instr.btnSquare, .btnCircle, .btnR2, .btnL2, .btnUnused14, .btnUnused15].all
    (fun i => nextIs (exec i (seed true 77 true 5)) (fun t => tuple t = (true, 77, true, 5))) = true := by decide

/-! ### The caller (Program 1 of L3) and the carrier (R114, by hand: on 2, off 1, five ticks, the last cycle cut) -/

set_option maxRecDepth 8000 in
theorem test_cycle_first : nextIs (runLines cycle (answering 0x00#8 0x00#8 0x00#8 0xFF#8 0xFF#8))
    (fun t => tuple t = (false, 0, false, 63) ∧ t.trace.length = 310 ∧ traceUnits t.trace = 1520) = true := by decide
theorem test_carrier_is_cut : eventWave minTiming (.mark 5) = [(true, 2), (false, 1), (true, 2)] := by decide

/-! ### A witness for the hypotheses of every statement that has some -/

theorem witness_IdleBlockWaitsForTheCaller : State.reset.phase = .idle ∧ State.reset.issued = [] := ⟨rfl, rfl⟩

theorem witness_StepRunsTheIssuedOperation : ∃ s : State, s.phase = .idle ∧ s.issued = 0x40000010#32 :: [] ∧
    decodeOperation 0x40000010#32 = .ok (.step 0x0010#16) :=
  ⟨State.reset.withFetchWord 32 0x40000010, rfl, rfl, by decide⟩

theorem witness_StepRunsTheSelectedEffect_some : ∃ s : State, s.phase = .step ∧
    selectionOrder = [.start] ++ .select :: [.up, .down, .left, .right, .l1, .r1, .triangle, .cross, .square, .circle, .r2,
      .l2, .unused14, .unused15] ∧ (∀ b' ∈ [Button.start], down s s.effects b' = false) ∧ down s s.effects .select = true :=
  ⟨State.reset.withFetchWord 16 0x0220, rfl, rfl, by decide, by decide⟩

theorem witness_StepRunsTheSelectedEffect_none : ∃ s : State, s.phase = .step ∧ ∀ b, down s s.effects b = false :=
  ⟨State.reset.withFetchWord 16 0, rfl, fun b => by cases b <;> decide⟩

theorem witness_IllegalWordsAreRefusedAndOthersRun (w : OpWord) :
    { State.reset with issued := [w] }.phase = .idle ∧ { State.reset with issued := [w] }.issued = w :: [] := ⟨rfl, rfl⟩

theorem witness_IllegalWords_clauses :
    refusedAs (step (State.reset.withFetchWord 32 0x00000001)) .reservedBitSet = true ∧
    refusedAs (step (State.reset.withFetchWord 32 0x40010000)) .reservedBitSet = true ∧
    refusedAs (step (State.reset.withFetchWord 32 0x8100BF1F)) .reservedBitSet = true ∧
    refusedAs (step (State.reset.withFetchWord 32 0xD0000000)) .reservedBitSet = true ∧
    refusedAs (step (State.reset.withFetchWord 32 0x84000000)) .reservedBitSet = true ∧
    refusedAs (step (State.reset.withFetchWord 32 0x80003F1F)) .channelZero = true ∧
    nextIs (step (State.reset.withFetchWord 32 0x81003F1F)) (fun _ => true) = true := by decide

theorem witness_CallerHasNoMoveWhileBusy : ∃ s t : State, s.phase ≠ .idle ∧ s.phase ≠ .step ∧
    t.phase ≠ .idle ∧ t.phase = .step ∧ ∃ u, step t = .next u :=
  ⟨{ State.reset with phase := .transmit }, { State.reset with phase := .step }, by decide, by decide, by decide, rfl, _, rfl⟩

theorem witness_DecodeOfEncodeIsTheInstruction : BtnPos.default.wf = true ∧
    (Instr.encode ⟨3#2, true, 255#8, true, 63#6, true, 31#5⟩).wf = true ∧ Instr.btnUnused15.wf = true := by decide

/-- Each clause, by its selector. -/
theorem witness_EncodeOfDecodeIsTheWord :
    (decodeOperation 0x00000000#32 = .ok .poll ∧ (0x00000000#32).extractLsb' 30 2 = 0b00#2) ∧
    (decodeOperation 0x4000FFFF#32 = .ok (.step 0xFFFF#16) ∧ (0x4000FFFF#32).extractLsb' 30 2 = 0b01#2) ∧
    (decodeOperation 0x83FF7F7F#32 = .ok (.encode ⟨3#2, true, 255#8, true, 63#6, true, 31#5⟩) ∧
      (0x83FF7F7F#32).extractLsb' 30 2 = 0b10#2) ∧
    (decodeOperation 0xCFFFFFFF#32 = .ok (.transmit 0xFFFFFFF#28) ∧ (0xCFFFFFFF#32).extractLsb' 30 2 = 0b11#2) := by decide

/-- For EncodeIsTotalAndPure, EncodePlacesFieldsAndSelectsTheChannel, ChecksumIsTheNegatedNibbleSum and
SevenNibblesSumToZero: each channel, and the channel clauses. -/
theorem witness_EncodeStatements : ∀ ch ∈ [1#2, 2#2, 3#2],
    (Command.wf ⟨ch, true, 255#8, true, 63#6, true, 31#5⟩ = true ∧ (ch = 2#2 ∨ ch ≠ 2#2)) := by decide

theorem witness_EncodeRefusesChannelZero : (Command.mk 0#2 false 0#8 false 63#6 false 31#5).channel = 0#2 := rfl

/-- For FrameHasThirtyOneMarkSpacePairs: each clause at the edges of its range. -/
theorem witness_FrameHasThirtyOneMarkSpacePairs : (0 < 31 ∧ 1 < 2 ∧ 30 < 31) ∧
    (2 ≤ 2 ∧ 2 < 30 ∧ (0x8000000#28).getLsbD (29 - 2) = true) ∧ (2 ≤ 29 ∧ 29 < 30 ∧ (0x8000000#28).getLsbD (29 - 29) = false) := by
  decide

/-- For FrameLastsTenSeventyTwoPlusThirtyTwoPerOne and MarkCarriesTheCarrierAndSpaceIsOff: the first and the last tick. -/
theorem witness_TimingStatements : minTiming.wf = true ∧ 0 < 34 * minTiming.tUnit ∧ 33 < 34 * minTiming.tUnit := by decide

theorem witness_StepResetsTransientsAndKeepsLatches :
    (∀ b ∈ effectOrder, down (seed true 77 true 5) 0xF140#16 b = false) ∧
    (down State.reset 0x0008#16 .up = true ∧ down State.reset 0x0008#16 .down = false) ∧ down State.reset 0x0002#16 .down = true ∧
    (down State.reset 0x0004#16 .left = true ∧ down State.reset 0x0004#16 .right = false ∧
      down State.reset 0x0004#16 .l1 = false ∧ down State.reset 0x0004#16 .r1 = false) ∧
    (down State.reset 0x0005#16 .right = true ∧ down State.reset 0x0005#16 .l1 = false ∧ down State.reset 0x0005#16 .r1 = false) ∧
    down State.reset 0x0800#16 .l1 = true ∧ down State.reset 0x0400#16 .r1 = true ∧
    (down State.reset 0x0280#16 .start = false ∧ down State.reset 0x0280#16 .select = false) ∧
    (down State.reset 0x0020#16 .start = false ∧ down State.reset 0x0020#16 .triangle = false ∧
      down State.reset 0x0020#16 .cross = false) := by decide

/-- For StepIgnoresStaleCommandFields: a block outside a STEP, idle, a step of it refused and a step of it answering. -/
theorem witness_StepIgnoresStaleCommandFields : State.reset.phase ≠ .step ∧ 16 ≤ 16 ∧
    (State.reset.withFetchWord 32 0x40000800).phase = .idle ∧
    nextIs (step (State.reset.withFetchWord 32 0x40000800)) (fun _ => true) = true ∧
    (State.reset.withFetchWord 32 0x85003F1F).phase = .idle ∧
    refusedAs (step (State.reset.withFetchWord 32 0x85003F1F)) .reservedBitSet = true := by decide

/-- For StepRunsPressedEffectsInTheFixedOrder: every consequence of R124. -/
theorem witness_StepRunsPressedEffectsInTheFixedOrder :
    (down State.reset 0x000A#16 .up = true ∧ down State.reset 0x000A#16 .down = true) ∧
    (down State.reset 0x0005#16 .left = true ∧ down State.reset 0x0005#16 .right = true ∧ down State.reset 0x0005#16 .l1 = false ∧
      down State.reset 0x0005#16 .r1 = false) ∧
    (down State.reset 0x0C00#16 .l1 = true ∧ down State.reset 0x0C00#16 .r1 = true) ∧
    (down State.reset 0x0030#16 .start = true ∧ down State.reset 0x0030#16 .select = true) ∧
    (down State.reset 0x0210#16 .start = true ∧ down State.reset 0x0210#16 .triangle = true ∧
      down State.reset 0x0210#16 .cross = false) ∧
    (down State.reset 0x0280#16 .start = false ∧ down State.reset 0x0280#16 .triangle = true ∧
      down State.reset 0x0280#16 .cross = true) := by decide

/-- For StepsCommandIsAlwaysEncodable, ResetMeetsTheMachineInvariant and EveryTrimAndLightIsReachable. -/
theorem witness_LegalBuild : minState.config.wf = true := by decide

theorem witness_HeldButtonsReapplyAtEveryStep : (down State.reset 0x0020#16 .select = true ∧ down State.reset 0x0020#16 .start = false) ∧
    (down State.reset 0x0200#16 .triangle = true ∧ down State.reset 0x0200#16 .start = false ∧
      down State.reset 0x0200#16 .cross = false) ∧
    (down State.reset 0x0800#16 .l1 = true ∧ down State.reset 0x0800#16 .r1 = false) := by decide

theorem witness_StepEqualsItsEffectsRunOneByOne : State.reset.config.btnPos.wf = true := by decide

theorem witness_StartClearsLightAndThrottle :
    (down State.reset 0x0010#16 .start = true ∧ down State.reset 0x0010#16 .select = false ∧
      down State.reset 0x0010#16 .triangle = false) ∧
    (down State.reset 0x0230#16 .start = true ∧ down State.reset 0x0230#16 .select = true ∧
      down State.reset 0x0230#16 .triangle = true ∧ down State.reset 0x0230#16 .cross = false) ∧
    down State.reset 0x0290#16 .start = true ∧ down State.reset 0x0290#16 .triangle = true ∧
    down State.reset 0x0290#16 .cross = true := by decide

theorem witness_SelectTogglesLight : (down State.reset 0x0030#16 .select = true ∧ down State.reset 0x0030#16 .start = true) ∧
    down State.reset 0x0020#16 .select = true ∧ down State.reset 0x0020#16 .start = false := by decide

theorem witness_UpDrivesForward : (down State.reset 0x0008#16 .up = true ∧ down State.reset 0x0008#16 .down = false) ∧
    down State.reset 0x000A#16 .up = true ∧ down State.reset 0x000A#16 .down = true := by decide

theorem witness_DownTiltsAndOverridesUp : down State.reset 0x000A#16 .down = true := by decide

/-- For LeftSteersThisCycleOnly and RightSteersThisCycleOnly: every clause. -/
theorem witness_LeftAndRightSteerThisCycleOnly :
    (down State.reset 0x0004#16 .left = true ∧ down State.reset 0x0004#16 .l1 = false ∧ down State.reset 0x0004#16 .r1 = false ∧
      down State.reset 0x0004#16 .right = false) ∧
    (down State.reset 0x0005#16 .left = true ∧ down State.reset 0x0005#16 .right = true ∧ down State.reset 0x0005#16 .l1 = false ∧
      down State.reset 0x0005#16 .r1 = false) ∧
    (down State.reset 0x0805#16 .left = true ∧ down State.reset 0x0805#16 .right = true ∧ down State.reset 0x0805#16 .l1 = true) ∧
    (down State.reset 0x0405#16 .left = true ∧ down State.reset 0x0405#16 .right = true ∧ down State.reset 0x0405#16 .r1 = true) := by
  decide

/-- For L1MovesTheTrimRight: every clause at its edge. -/
theorem witness_L1MovesTheTrimRight : (seed false 0 true 63).trimFlag = true ∧
    ((seed false 0 false 62).trimFlag = false ∧ (seed false 0 false 62).trimMag.toNat < 63) ∧
    ((seed false 0 false 63).trimFlag = false ∧ (seed false 0 false 63).trimMag = 63#6) ∧
    down State.reset 0x0800#16 .l1 = true ∧ down State.reset 0x0800#16 .r1 = false := by decide

/-- For R1MovesTheTrimLeft: every clause at its edge. -/
theorem witness_R1MovesTheTrimLeft : (seed false 0 false 0).trimFlag = false ∧
    ((seed false 0 true 1).trimFlag = true ∧ 0 < (seed false 0 true 1).trimMag.toNat) ∧
    ((seed false 0 true 0).trimFlag = true ∧ (seed false 0 true 0).trimMag = 0#6) ∧
    (down State.reset 0x0400#16 .r1 = true ∧ down State.reset 0x0400#16 .l1 = false) ∧
    down State.reset 0x0C00#16 .r1 = true ∧ down State.reset 0x0C00#16 .l1 = true ∧
    ((seed false 0 true 63).trimFlag = true ∧ (seed false 0 true 63).trimMag = 63#6) ∧
    ¬((seed false 0 true 62).trimFlag = true ∧ (seed false 0 true 62).trimMag = 63#6) := by decide

theorem witness_TriangleAndCrossClampTheThrottle : 3 ≤ (seed false 3 false 63).throttle.toNat ∧
    (seed false 2 false 63).throttle.toNat < 3 ∧
    down State.reset 0x0280#16 .start = false ∧ down State.reset 0x0280#16 .triangle = true ∧
    down State.reset 0x0280#16 .cross = true := by decide

theorem witness_NoEffectFlagsChangeNothing :
    ∀ b ∈ effectOrder, down State.reset 0xF140#16 b = down State.reset 0x0000#16 b := by decide

/-- For OnlyTheListedOperationsWrite, each kind of instruction has a next state; for NoStepChangesTheBuild and
TrimDialMovesByOneAtMost, a step has one. -/
theorem witness_InstructionsHaveNextStates :
    (∃ t, exec .poll State.reset = .next t) ∧ (∃ t, exec (.step 0x0800#16) State.reset = .next t) ∧
    (∃ t, exec (.encode ⟨1#2, false, 0#8, false, 63#6, false, 31#5⟩) State.reset = .next t) ∧
    (∃ t, exec (.transmit 0#28) State.reset = .next t) ∧ (∃ t, exec .btnL1 State.reset = .next t) ∧
    isOperation .btnL1 = false ∧ ∃ t, step (State.reset.withFetchWord 32 0x40000800) = .next t :=
  ⟨⟨_, rfl⟩, ⟨_, rfl⟩, ⟨_, rfl⟩, ⟨_, rfl⟩, ⟨_, rfl⟩, rfl, _, rfl⟩

/-- For TrimFlagFlipsOnlyAtTheExtremes: a flip in each direction. -/
theorem witness_TrimFlagFlipsOnlyAtTheExtremes :
    nextIs (step ((seed false 0 false 63).withFetchWord 32 0x40000800)) (fun t => t.trimFlag ≠ false) = true ∧
    nextIs (step ((seed false 0 true 0).withFetchWord 32 0x40000400)) (fun t => t.trimFlag ≠ true) = true := by decide

/-- For ThrottleStaysAMultipleOfThree: the two ends of the range. -/
theorem witness_ThrottleStaysAMultipleOfThree : (seed false 255 false 63).throttle.toNat % 3 = 0 ∧
    (seed false 0 false 63).throttle.toNat % 3 = 0 ∧
    nextIs (step ((seed false 255 false 63).withFetchWord 32 0x40000200)) (fun _ => true) = true := by decide

/-- For EveryStepKeepsTheMachineInvariant: an idle state with a word issued, and a state inside a STEP. -/
theorem witness_EveryStepKeepsTheMachineInvariant :
    (minState.withFetchWord 32 0).Inv ∧ nextIs (step (minState.withFetchWord 32 0)) (fun _ => true) = true ∧
    (minState.withFetchWord 16 0x0800).Inv ∧ nextIs (step (minState.withFetchWord 16 0x0800)) (fun _ => true) = true := by decide

/-- For CycleFollowsTheDataFlow and Cycle3SendsTheFrameThreeTimes. -/
theorem witness_CycleStatements : minState.phase = .idle ∧ minState.config.wf = true := by decide

end Sys2Proof.Tests
end

section
/-! PROOF. What a reset of any build leaves in the trim registers (spec/10_state.md R40). -/

namespace Sys2Proof.Machine

/-- TRIM_FLAG after reset (R40). -/
@[simp] theorem State.resetWith_trimFlag (c : Config) : (State.resetWith c).trimFlag = false := rfl

/-- TRIM_MAG after reset (R40). -/
@[simp] theorem State.resetWith_trimMag (c : Config) : (State.resetWith c).trimMag = 63#6 := rfl

/-- Settles O1: no parameter of a build enters the trim registers, and `State.reset` is the reset of the default build. -/
theorem resetTrimIsFalseSixtyThree : Obligations.ResetTrimIsFalseSixtyThree := by
  have trim_of_build (c : Config) : (State.resetWith c).trimFlag = false ∧ (State.resetWith c).trimMag = 63#6 :=
    ⟨State.resetWith_trimFlag c, State.resetWith_trimMag c⟩
  exact ⟨trim_of_build, trim_of_build Config.default⟩

end Sys2Proof.Machine
end

section
/-! PROOF. What a POLL captures: the response registers hold the samples of DAT in order (spec/20_memory.md R50, R51). -/

namespace Sys2Proof.Machine

open Sys2Proof.Spec

/-- `t` stands n bytes after `s` in a POLL: 8 samples used up per byte, and RESP[1..n] hold them, the first sample of a byte in
bit 0 (R50, R85). -/
structure BytesCaptured (s t : State) (n : Nat) : Prop where
  dat : t.dat = s.dat.drop (8 * n)
  draws : t.draws = s.draws + 8 * n
  resp : ∀ (k : Nat) (hk : k < 5), k < n → ∀ j < 8, (t.resp[k]).getLsbD j = drawAt s (8 * k + j)

/-- Before the first byte nothing is captured. -/
theorem BytesCaptured.start {s t : State} (hd : t.dat = s.dat) (hc : t.draws = s.draws) : BytesCaptured s t 0 where
  dat := by simp [hd]
  draws := by simp [hc]
  resp _ _ hk := absurd hk (Nat.not_lt_zero _)

/-- The j-th sample of the byte after n bytes is sample 8n + j of the POLL. -/
theorem BytesCaptured.laterDraw_eq {s t : State} {n : Nat} (h : BytesCaptured s t n) (j : Nat) :
    laterDraw t j = drawAt s (8 * n + j) := by
  simp only [laterDraw, drawAt, h.dat, h.draws, List.getElem?_drop, Nat.add_assoc]

/-- RXSHIFT after a whole byte holds the byte's samples, bit 0 first: nothing of the cleared register is left. -/
theorem getLsbD_rxAfter_beginByte (s : State) (k j : Nat) (hj : j < 8) :
    (rxAfter (beginByte k s) 8).getLsbD j = laterDraw s j := by
  rw [getLsbD_rxAfter _ _ _ hj, if_pos hj]
  rfl

/-- One byte exchange captures one byte more: byte n + 1 goes to entry n of RESP, and the entries before it stay. -/
theorem BytesCaptured.byteExchange {s t : State} {n : Nat} (h : BytesCaptured s t n) :
    BytesCaptured s (byteExchange t (n + 1)) (n + 1) := by
  rw [byteExchange_eq]
  refine ⟨?_, ?_, fun k hk hkn j hj => ?_⟩
  · simp only [h.dat, List.drop_drop, Nat.mul_succ]
  · simp only [h.draws, Nat.mul_succ, Nat.add_assoc]
  · simp only [Nat.add_sub_cancel]
    rcases Nat.lt_succ_iff_lt_or_eq.mp hkn with hlt | rfl
    · rw [Vector.getElem_setIfInBounds_ne hk (by omega)]
      exact h.resp k hk hlt j hj
    · rw [Vector.getElem_setIfInBounds_self, getLsbD_rxAfter_beginByte _ _ _ hj, h.laterDraw_eq]

/-- The first n byte exchanges of a POLL capture n bytes. -/
theorem BytesCaptured.foldl_byteExchange {s t : State} (h : BytesCaptured s t 0) (n : Nat) :
    BytesCaptured s ((List.range' 1 n).foldl Machine.byteExchange t) n := by
  induction n with
  | zero => exact h
  | succ n ih =>
    rw [List.range'_1_concat, List.foldl_append, Nat.add_comm 1 n]
    exact ih.byteExchange

/-- The end of a POLL leaves what was captured: it waits, releases ATT and gives the result (R85). -/
theorem BytesCaptured.finish {s t : State} {n : Nat} (h : BytesCaptured s t n) (level : Bool) (r : Result) :
    BytesCaptured s (finishOp r (drive .att level (wait .tAttHold t))) n :=
  ⟨h.dat, h.draws, h.resp⟩

/-- POLL completes from every state with the ButtonState of RESP[4] and RESP[5], its five bytes captured (R85, R92). -/
theorem exec_poll_captures (s : State) : ∃ t, exec .poll s = .next t ∧ BytesCaptured s t 5 ∧
    t.result = .buttonState (buttonsOf t.resp[3] t.resp[4]) := by
  have started : BytesCaptured s (wait .tAttSetup (drive .att s.config.attActive (enter .poll s))) 0 :=
    .start rfl rfl
  exact ⟨_, rfl, (started.foldl_byteExchange 5).finish _ _, rfl⟩

/-- The low half of a ButtonState is the first of its two bytes, inverted (R92). -/
theorem getLsbD_buttonsOf_low (low high : Byte) (i : Nat) (hi : i < 8) :
    (buttonsOf low high).getLsbD i = !low.getLsbD i := by
  have h16 : i < 16 := by omega
  simp [buttonsOf, hi, h16]

/-- The high half of a ButtonState is the second of its two bytes, inverted (R92). -/
theorem getLsbD_buttonsOf_high (low high : Byte) (i : Nat) (hi : i < 8) :
    (buttonsOf low high).getLsbD (8 + i) = !high.getLsbD i := by
  have h16 : 8 + i < 16 := by omega
  simp [buttonsOf, h16]

/-- Settles O13: RESP[4] and RESP[5] hold samples 24 to 39, and the ButtonState made of them is their inverse bit by bit. -/
theorem pollReturnsTheInvertedButtonBytes : Obligations.PollReturnsTheInvertedButtonBytes := by
  intro s
  obtain ⟨t, hexec, hcap, hresult⟩ := exec_poll_captures s
  refine ⟨t, buttonsOf t.resp[3] t.resp[4], hexec, hresult, rfl, fun i hi => ⟨?_, ?_, ?_, ?_⟩⟩
  · exact hcap.resp 3 (by decide) (by decide) i hi
  · exact hcap.resp 4 (by decide) (by decide) i hi
  · exact getLsbD_buttonsOf_low _ _ i hi
  · exact getLsbD_buttonsOf_high _ _ i hi

end Sys2Proof.Machine
end

section
/-! PROOF. Where ENCODE places the fields of a Command in its TransmissionWord (spec/30_encoding.md R78, R100). -/

namespace Sys2Proof

/-- The selector bits of a channel that keeps its body: bit A (7), and for channel 3 bit B (15) too (R100). -/
def selectorBits (channel : BitVec 2) : Body :=
  if channel = 3#2 then 0x008080#24 else 0x000080#24

/-- Bit A is set for both channels, bit B for channel 3 alone (R100). -/
theorem selectorBits_set (channel : BitVec 2) :
    (selectorBits channel).getLsbD 7 = true ∧ (selectorBits channel).getLsbD 15 = decide (channel = 3#2) := by
  revert channel
  decide

/-- No selector bit stands on a one-bit field of the Command. -/
theorem selectorBits_clear (channel : BitVec 2) :
    (selectorBits channel).getLsbD 5 = false ∧ (selectorBits channel).getLsbD 6 = false ∧
      (selectorBits channel).getLsbD 14 = false := by
  revert channel
  decide

/-- Channel 2 has the empty body. -/
theorem bodyOf_channel_two {c : Command} (h : c.channel = 2#2) : bodyOf c = some 0#24 := by
  unfold bodyOf
  rw [h]
  rfl

/-- The other two channels add their selector bits to the packed body. -/
theorem bodyOf_selected {c : Command} (hwf : c.wf = true) (h2 : c.channel ≠ 2#2) :
    bodyOf c = some (packBody c ||| selectorBits c.channel) := by
  have h0 : c.channel ≠ 0#2 := by simpa [Command.wf] using hwf
  have hch : ∀ ch : BitVec 2, ch ≠ 0#2 → ch ≠ 2#2 → ch = 1#2 ∨ ch = 3#2 := by decide
  unfold bodyOf
  rcases hch c.channel h0 h2 with h | h <;> rw [h] <;> rfl

/-- R98 packs the body in the layout of the operand field `W[23:0]` (R69). -/
theorem packBody_eq_setWidth_packCommand (c : Command) : packBody c = (packCommand c).setWidth 24 := by
  apply BitVec.eq_of_getLsbD_eq
  intro i hi
  simp only [packBody, packCommand, BitVec.getLsbD_or, BitVec.getLsbD_shiftLeft, BitVec.getLsbD_setWidth,
    BitVec.getLsbD_append, BitVec.getLsbD_ofBool]
  interval_cases i <;> simp

/-- The body of a TransmissionWord is its bits 27..4 (R79, R102). -/
theorem getLsbD_wordOfBody (body : Body) (i : Nat) : (wordOfBody body).getLsbD (4 + i) = body.getLsbD i := by
  rw [wordOfBody, getLsbD_assembleWord, if_neg (by omega), Nat.add_sub_cancel_left]

/-- A field of the body is the same field of the word, four bits up. -/
theorem extractLsb'_wordOfBody (body : Body) (i n : Nat) :
    (wordOfBody body).extractLsb' (4 + i) n = body.extractLsb' i n := by
  apply BitVec.eq_of_getLsbD_eq
  intro j _
  rw [BitVec.getLsbD_extractLsb', BitVec.getLsbD_extractLsb', Nat.add_assoc, getLsbD_wordOfBody]

/-- A bit of the word of a channel that keeps its body. -/
theorem getLsbD_selectedWord (c : Command) {i : Nat} (hi : i < 24) :
    (wordOfBody (packBody c ||| selectorBits c.channel)).getLsbD (4 + i) =
      ((packCommand c).getLsbD i || (selectorBits c.channel).getLsbD i) := by
  rw [getLsbD_wordOfBody, BitVec.getLsbD_or, packBody_eq_setWidth_packCommand, BitVec.getLsbD_setWidth]
  simp [hi]

/-- A field of the Command outside the selector bits stands in the word as in the operand field. -/
theorem extractLsb'_selectedWord (c : Command) {i n : Nat} (hi : i + n ≤ 24)
    (hsel : ∀ ch, (selectorBits ch).extractLsb' i n = 0#n) :
    (wordOfBody (packBody c ||| selectorBits c.channel)).extractLsb' (4 + i) n = (packCommand c).extractLsb' i n := by
  rw [extractLsb'_wordOfBody, BitVec.extractLsb'_or, hsel, BitVec.or_zero, packBody_eq_setWidth_packCommand]
  apply BitVec.eq_of_getLsbD_eq
  intro j hj
  have hij : i + j < 24 := by omega
  simp [hij]

/-- The fields of the operand field `W[25:0]`, read back one by one (R69). -/
theorem packCommand_fields (c : Command) :
    (packCommand c).extractLsb' 16 8 = c.throttle ∧ (packCommand c).getLsbD 14 = c.turnRight ∧
    (packCommand c).extractLsb' 8 6 = c.turn ∧ (packCommand c).getLsbD 6 = c.light ∧
    (packCommand c).getLsbD 5 = c.forward ∧ (packCommand c).extractLsb' 0 5 = c.tilt := by
  have h := unpackCommand_packCommand c
  exact ⟨congrArg Command.throttle h, congrArg Command.turnRight h, congrArg Command.turn h, congrArg Command.light h,
    congrArg Command.forward h, congrArg Command.tilt h⟩

/-- The operand field leaves the position of bit B at 0 (R69). -/
theorem getLsbD_packCommand_fifteen (c : Command) : (packCommand c).getLsbD 15 = false := by
  simp only [packCommand, BitVec.getLsbD_append]
  simp

end Sys2Proof

namespace Sys2Proof.Machine

/-- ENCODE of a command with a body answers the word of that body (R97). -/
theorem exec_encode_of_bodyOf {c : Command} {body : Body} (h : bodyOf c = some body) (s : State) :
    exec (.encode c) s = .next { s with phase := .idle, result := .word (wordOfBody body) } :=
  execEncode_next.mpr ⟨wordOfBody body, by rw [wordOf, h]; rfl, rfl⟩

/-- Settles O18: channel 2 has the empty body; the other two keep the operand field's layout under their selector bits. -/
theorem encodePlacesFieldsAndSelectsTheChannel : Obligations.EncodePlacesFieldsAndSelectsTheChannel := by
  intro c s hwf
  by_cases h2 : c.channel = 2#2
  · refine ⟨wordOfBody 0#24, exec_encode_of_bodyOf (bodyOf_channel_two h2) s, fun _ => ?_, fun h => absurd h2 h⟩
    exact extractLsb'_wordOfBody 0#24 0 24
  · refine ⟨_, exec_encode_of_bodyOf (bodyOf_selected hwf h2) s, fun h => absurd h h2, fun _ => ?_⟩
    obtain ⟨hthrottle, hturnRight, hturn, hlight, hforward, htilt⟩ := packCommand_fields c
    obtain ⟨hbitA, hbitB⟩ := selectorBits_set c.channel
    obtain ⟨h5, h6, h14⟩ := selectorBits_clear c.channel
    refine ⟨?tilt, ?forward, ?light, ?bitA, ?turn, ?turnRight, ?bitB, ?throttle⟩
    case tilt => exact (extractLsb'_selectedWord c (i := 0) (by decide) (by decide)).trans htilt
    case turn => exact (extractLsb'_selectedWord c (i := 8) (by decide) (by decide)).trans hturn
    case throttle => exact (extractLsb'_selectedWord c (i := 16) (by decide) (by decide)).trans hthrottle
    case forward => rw [getLsbD_selectedWord c (i := 5) (by decide), hforward, h5, Bool.or_false]
    case light => rw [getLsbD_selectedWord c (i := 6) (by decide), hlight, h6, Bool.or_false]
    case turnRight => rw [getLsbD_selectedWord c (i := 14) (by decide), hturnRight, h14, Bool.or_false]
    case bitA => rw [getLsbD_selectedWord c (i := 7) (by decide), hbitA, Bool.or_true]
    case bitB => rw [getLsbD_selectedWord c (i := 15) (by decide), getLsbD_packCommand_fifteen, hbitB, Bool.false_or]

end Sys2Proof.Machine
end

section
/-! PROOF. POLL has no error path, and 40 answers on DAT can be chosen for any ButtonState (spec/40_controller_link.md R94). -/

namespace Sys2Proof.Machine

open Sys2Proof.Spec

/-- POLL completes from every state with a ButtonState whose bit i is sample 24 + i inverted (R92). -/
theorem exec_poll_inverts_samples (s : State) : ∃ t bs, exec .poll s = .next t ∧ t.result = .buttonState bs ∧
    ∀ i < 16, bs.getLsbD i = !drawAt s (24 + i) := by
  obtain ⟨t, bs, hexec, hresult, -, hbits⟩ := pollReturnsTheInvertedButtonBytes s
  refine ⟨t, bs, hexec, hresult, fun i hi => ?_⟩
  by_cases hlow : i < 8
  · obtain ⟨hsample, -, hinv, -⟩ := hbits i hlow
    rw [hinv, hsample]
  · obtain ⟨j, rfl⟩ := Nat.exists_eq_add_of_le (Nat.le_of_not_lt hlow)
    obtain ⟨-, hsample, -, hinv⟩ := hbits j (by omega)
    rw [hinv, hsample, ← Nat.add_assoc]

/-- The answers with which a POLL returns `bs`: three bytes that POLL does not return, then the flags inverted, flag 0 first
(R51, R92). -/
def answersFor (bs : ButtonState) : List Bool :=
  List.replicate 24 false ++ (List.range 16).map fun i => !bs.getLsbD i

/-- They are one answer for each of POLL's 40 samples. -/
theorem length_answersFor (bs : ButtonState) : (answersFor bs).length = 40 := by
  simp [answersFor]

/-- Given these answers, sample 24 + i is flag i inverted, whatever the free values of DAT are. -/
theorem drawAt_answersFor (s : State) (bs : ButtonState) {i : Nat} (hi : i < 16) :
    drawAt { s with dat := answersFor bs } (24 + i) = !bs.getLsbD i := by
  have hflag : (answersFor bs)[24 + i]? = some (!bs.getLsbD i) := by
    rw [answersFor, List.getElem?_append_right (by simp), List.length_replicate, Nat.add_sub_cancel_left]
    simp [hi]
  rw [drawAt, hflag, Option.getD_some]

/-- Settles O14: the samples that form the ButtonState can be answered with any 16 values, and POLL inverts them back. -/
theorem pollNeverFailsAndCanReturnAnyValue : Obligations.PollNeverFailsAndCanReturnAnyValue := by
  refine ⟨fun s => ?_, fun s bs => ?_⟩
  · obtain ⟨t, bs, hexec, hresult, -⟩ := exec_poll_inverts_samples s
    exact ⟨t, bs, hexec, hresult⟩
  · obtain ⟨t, bs', hexec, hresult, hbits⟩ := exec_poll_inverts_samples { s with dat := answersFor bs }
    have returned : bs' = bs := BitVec.eq_of_getLsbD_eq fun i hi => by
      rw [hbits i hi, drawAt_answersFor s bs hi, Bool.not_not]
    exact ⟨answersFor bs, t, length_answersFor bs, hexec, returned ▸ hresult⟩

end Sys2Proof.Machine
end

section
/-! PROOF. ENCODE is total on legal Commands, and neither its word nor its effect depends on the state
(spec/41_command_encoder.md R106). -/

namespace Sys2Proof.Machine

/-- Settles O16: a legal Command has a word, chosen before any state is given, and ENCODE answers it from each. -/
theorem encodeIsTotalAndPure : Obligations.EncodeIsTotalAndPure := by
  intro c hwf
  have hsome : (wordOf c).isSome = true := (wordOf_isSome c).trans hwf
  obtain ⟨w, hw⟩ := Option.isSome_iff_exists.mp hsome
  exact ⟨w, fun _ => execEncode_next.mpr ⟨w, hw, rfl⟩⟩

end Sys2Proof.Machine
end

section
/-! PROOF. The shape of a frame, pair by pair (spec/42_pulse_transmitter.md R109 to R112). -/

namespace Sys2Proof.Machine

/-- The two symbols of a pair of lengths: a mark, then its space (R108). -/
def pairSymbols (q : Nat × Nat) : List Event :=
  [.mark q.1, .space q.2]

/-- The lengths of the pair of a data bit (R110). -/
def bitPair (b : Bool) : Nat × Nat :=
  if b then (oneMark, oneSpace) else (zeroMark, zeroSpace)

/-- The lengths of the pairs of a frame: header twice (R109), the data bits MSB first (R110), trailer (R111). -/
def framePairs (w : TxWord) : List (Nat × Nat) :=
  (hdrMark, hdrSpace) :: (hdrMark, hdrSpace) ::
    ((List.range 28).reverse.map (fun j => bitPair (w.getLsbD j)) ++ [(oneMark, oneSpace)])

/-- The symbols of a data bit are those of its pair. -/
theorem bitSymbols_eq_pairSymbols (b : Bool) : bitSymbols b = pairSymbols (bitPair b) := by
  cases b <;> rfl

/-- TRANSMIT completes from every state, and the events it appends are the symbols of the frame's pairs, in order (R107). -/
theorem exec_transmit_appends_framePairs (w : TxWord) (s : State) :
    ∃ t, exec (.transmit w) s = .next t ∧ t.trace = s.trace ++ (framePairs w).flatMap pairSymbols := by
  refine ⟨_, rfl, ?_⟩
  rw [finishOp_trace, symbolPair_eq, foldl_dataPair _ _ _ (by simp only [symbolPair_eq])]
  simp only [symbolPair_eq, bitSymbols_eq_pairSymbols, framePairs, List.flatMap_cons, List.flatMap_append,
    List.flatMap_map, List.append_assoc]
  rfl

/-- Each pair is two symbols. -/
theorem length_flatMap_pairSymbols (qs : List (Nat × Nat)) : (qs.flatMap pairSymbols).length = 2 * qs.length := by
  simp [pairSymbols, List.length_flatMap, Nat.mul_comm]

/-- Symbol 2p is the mark of pair p and symbol 2p + 1 its space. -/
theorem getElem?_flatMap_pairSymbols {qs : List (Nat × Nat)} {p : Nat} {q : Nat × Nat} (h : qs[p]? = some q) :
    (qs.flatMap pairSymbols)[2 * p]? = some (.mark q.1) ∧ (qs.flatMap pairSymbols)[2 * p + 1]? = some (.space q.2) := by
  induction qs generalizing p with
  | nil => simp at h
  | cons r rest ih =>
    cases p with
    | zero =>
      obtain rfl : r = q := by simpa using h
      exact ⟨rfl, rfl⟩
    | succ p => exact ih (by simpa using h)

/-- A frame has 31 pairs (R112). -/
theorem length_framePairs (w : TxWord) : (framePairs w).length = 31 := by
  simp [framePairs]

/-- Pairs 0 and 1 are header pairs (R109). -/
theorem framePairs_header (w : TxWord) {p : Nat} (hp : p < 2) : (framePairs w)[p]? = some (34, 22) := by
  obtain rfl | rfl : p = 0 ∨ p = 1 := by omega
  · rfl
  · rfl

/-- Pair p of the 28 after the header is the pair of data bit 29 - p (R110). -/
theorem framePairs_data (w : TxWord) {p : Nat} (hlo : 2 ≤ p) (hhi : p < 30) :
    (framePairs w)[p]? = some (bitPair (w.getLsbD (29 - p))) := by
  obtain ⟨j, rfl⟩ := Nat.exists_eq_add_of_le' hlo
  have hj : j < 28 := by omega
  have hbit : 28 - 1 - j = 29 - (j + 2) := by omega
  have hrev : (List.range 28).reverse[j]? = some (29 - (j + 2)) := by
    rw [List.getElem?_reverse (by simpa using hj), List.length_range, List.getElem?_range (by omega), hbit]
  rw [framePairs, List.getElem?_cons_succ, List.getElem?_cons_succ, List.getElem?_append_left (by simpa using hj),
    List.getElem?_map, hrev, Option.map_some]

/-- Pair 30 is the trailer pair (R111). -/
theorem framePairs_trailer (w : TxWord) : (framePairs w)[30]? = some (30, 34) := by
  simp [framePairs, oneMark, oneSpace]

/-- Settles O22: the symbols are those of the frame's 31 pairs, and each clause is one part of the frame. -/
theorem frameHasThirtyOneMarkSpacePairs : Obligations.FrameHasThirtyOneMarkSpacePairs := by
  intro w s
  obtain ⟨t, hexec, htrace⟩ := exec_transmit_appends_framePairs w s
  refine ⟨t, _, hexec, htrace, by rw [length_flatMap_pairSymbols, length_framePairs], fun p hp => ?_⟩
  obtain ⟨⟨m, n⟩, hpair⟩ : ∃ q, (framePairs w)[p]? = some q :=
    ⟨_, List.getElem?_eq_getElem (by rwa [length_framePairs])⟩
  obtain ⟨hmark, hspace⟩ := getElem?_flatMap_pairSymbols hpair
  have lengths_eq {a b : Nat} (h : (framePairs w)[p]? = some (a, b)) : m = a ∧ n = b :=
    Prod.mk.inj (Option.some.inj (hpair.symm.trans h))
  refine ⟨m, n, hmark, hspace, fun hheader => ?_, fun hlo hhi hone => ?_, fun hlo hhi hzero => ?_, fun htrailer => ?_⟩
  · exact lengths_eq (framePairs_header w hheader)
  · exact lengths_eq (by rw [framePairs_data w hlo hhi, hone]; rfl)
  · exact lengths_eq (by rw [framePairs_data w hlo hhi, hzero]; rfl)
  · exact lengths_eq (htrailer ▸ framePairs_trailer w)

end Sys2Proof.Machine
end

section
/-! PROOF. What a STEP leaves in each register it writes (spec/43_control_state_machine.md R122 to R124, R139). -/

namespace Sys2Proof.Machine

open Sys2Proof.Spec

variable (bs : ButtonState) (s : State)

/-- The state a STEP ends in: the per-cycle reset, the pressed effects, the return (R122). -/
def stepState : State :=
  finishStep (runEffects bs (beginStep bs s))

/-- STEP completes from every state on every operand. -/
theorem exec_step : exec (.step bs) s = .next (stepState bs s) := rfl

/-- The Command a STEP returns is read from the registers it leaves (R139). -/
theorem stepState_result : (stepState bs s).result = .command (commandOf (stepState bs s)) := rfl

/-- A STEP keeps the build (R29). -/
@[simp] theorem stepState_config : (stepState bs s).config = s.config :=
  foldl_effects_config bs effectOrder (beginStep bs s)

/-- The statements read a flag of the operand as the effects do (R75). -/
theorem down_eq_flag (b : Button) : down s bs b = flag bs s b := rfl

/-- A STEP leaves `BTN_POS`, so an operand has the same flags after it. -/
@[simp] theorem flag_stepState (bs' : ButtonState) (b : Button) : flag bs (stepState bs' s) b = flag bs s b := by
  rw [flag, stepState_config, flag]

theorem stepState_light : (stepState bs s).light =
    if flag bs s .select then !(if flag bs s .start then false else s.light)
    else if flag bs s .start then false else s.light :=
  congrArg State.light (runEffects_eq bs (beginStep bs s))

theorem stepState_throttle : (stepState bs s).throttle = throttleAfter bs s :=
  congrArg State.throttle (runEffects_eq bs (beginStep bs s))

theorem stepState_trimFlag : (stepState bs s).trimFlag = (trimAfter bs s).1 :=
  congrArg State.trimFlag (runEffects_eq bs (beginStep bs s))

theorem stepState_trimMag : (stepState bs s).trimMag = (trimAfter bs s).2 :=
  congrArg State.trimMag (runEffects_eq bs (beginStep bs s))

theorem stepState_cmdTurnRight : (stepState bs s).cmdTurnRight =
    if flag bs s .r1 then (trimAfter bs s).1 else if flag bs s .l1 then (trimAfterL1 bs s).1
    else if flag bs s .right then true else if flag bs s .left then false else s.trimFlag :=
  congrArg State.cmdTurnRight (runEffects_eq bs (beginStep bs s))

theorem stepState_cmdTurn : (stepState bs s).cmdTurn =
    if flag bs s .r1 then (trimAfter bs s).2 else if flag bs s .l1 then (trimAfterL1 bs s).2
    else if flag bs s .right then fullRightTurn else if flag bs s .left then fullLeftTurn else s.trimMag :=
  congrArg State.cmdTurn (runEffects_eq bs (beginStep bs s))

/-- Without Up and Down the reset value 0 stays (R123). -/
theorem stepState_cmdForward : (stepState bs s).cmdForward = (!flag bs s .down && flag bs s .up) := by
  have hlast : (stepState bs s).cmdForward = if flag bs s .down then false else if flag bs s .up then true else false :=
    congrArg State.cmdForward (runEffects_eq bs (beginStep bs s))
  rw [hlast]
  cases flag bs s .down <;> cases flag bs s .up <;> rfl

/-- What Up writes is the reset value (R123). -/
theorem stepState_cmdTilt : (stepState bs s).cmdTilt = if flag bs s .down then downTilt else neutralTilt := by
  have hlast : (stepState bs s).cmdTilt =
      if flag bs s .down then downTilt else if flag bs s .up then neutralTilt else neutralTilt :=
    congrArg State.cmdTilt (runEffects_eq bs (beginStep bs s))
  rw [hlast, ite_self]

/-! The fields of the returned Command (R139). -/

@[simp] theorem commandOf_turnRight : (commandOf s).turnRight = s.cmdTurnRight := rfl
@[simp] theorem commandOf_turn : (commandOf s).turn = s.cmdTurn := rfl
@[simp] theorem commandOf_forward : (commandOf s).forward = s.cmdForward := rfl
@[simp] theorem commandOf_tilt : (commandOf s).tilt = s.cmdTilt := rfl

end Sys2Proof.Machine
end

section
/-! PROOF. The latched LIGHT and THROTTLE: Start runs before Select, Triangle and Cross
(spec/43_control_state_machine.md R125, R126). -/

namespace Sys2Proof.Machine

variable {bs : ButtonState} {s : State}

/-- With Start pressed, the effects do what they do where Start has already run. -/
theorem runEffects_startEffect (h : flag bs s .start = true) : runEffects bs (startEffect s) = runEffects bs s := by
  have hstart : flag bs (startEffect s) .start = true := h
  rw [runEffects_comp, runEffects_comp, hstart, h]
  rfl

/-- With Start pressed, a STEP does not depend on LIGHT and THROTTLE: it is the one from 0 and 0. -/
theorem stepState_cleared (h : flag bs s .start = true) :
    stepState bs s = stepState bs { s with light := false, throttle := 0#8 } := by
  have hbegun : flag bs (beginStep bs s) .start = true := h
  exact congrArg finishStep (runEffects_startEffect hbegun).symm

/-- After Start, Triangle alone leaves the throttle above 0 (R133, R134). -/
theorem throttleAfter_of_start (h : flag bs s .start = true) :
    throttleAfter bs s = if flag bs s .triangle && !flag bs s .cross then 3#8 else 0#8 := by
  unfold throttleAfter
  rw [h]
  cases flag bs s .triangle <;> cases flag bs s .cross <;> rfl

/-- After Start, LIGHT is 1 exactly if Select is pressed (R126). -/
theorem stepState_light_of_start (h : flag bs s .start = true) : (stepState bs s).light = flag bs s .select := by
  rw [stepState_light, h]
  cases flag bs s .select <;> rfl

/-- Without Start, Select inverts LIGHT (R126). -/
theorem stepState_light_of_select (hselect : flag bs s .select = true) (hstart : flag bs s .start = false) :
    (stepState bs s).light = !s.light := by
  simp [stepState_light, hselect, hstart]

/-- Settles O34: Start's effect runs first, so LIGHT and THROTTLE at the end are what the later effects make of 0 and 0. -/
theorem startClearsLightAndThrottle : Obligations.StartClearsLightAndThrottle := by
  unfold Obligations.StartClearsLightAndThrottle
  simp only [down_eq_flag]
  refine ⟨fun _ => rfl, by decide, fun s bs hstart => ⟨?_, stepState bs s, exec_step bs s, ?_⟩⟩
  · rw [exec_step, exec_step, ← stepState_cleared hstart]
  · rw [stepState_light_of_start hstart, stepState_throttle, throttleAfter_of_start hstart]
    exact ⟨id, id, fun htriangle hcross => by simp [htriangle, hcross], fun htriangle => by simp [htriangle],
      fun hcross => by simp [hcross]⟩

/-- Settles O35: Select inverts the LIGHT that Start may have cleared, and a second STEP inverts it back. -/
theorem selectTogglesLight : Obligations.SelectTogglesLight := by
  unfold Obligations.SelectTogglesLight
  simp only [down_eq_flag]
  refine ⟨fun _ => rfl, by decide, fun s bs hselect =>
    ⟨stepState bs s, stepState bs (stepState bs s), exec_step bs s, exec_step bs _, fun hstart => ?_, fun hstart => ?_⟩⟩
  · rw [stepState_light_of_start hstart, hselect]
  · have honce : (stepState bs s).light = !s.light := stepState_light_of_select hselect hstart
    refine ⟨honce, ?_⟩
    rw [stepState_light_of_select (by rwa [flag_stepState]) (by rwa [flag_stepState]), honce, Bool.not_not]

end Sys2Proof.Machine
end

section
/-! PROOF. The drive fields of the Command: Up and Down (spec/43_control_state_machine.md R127, R128). -/

namespace Sys2Proof.Machine

variable {bs : ButtonState} {s : State}

/-- Down clears forward and tilt, with or without Up (R128). -/
theorem commandOf_stepState_of_down (h : flag bs s .down = true) :
    (commandOf (stepState bs s)).forward = false ∧ (commandOf (stepState bs s)).tilt = 0#5 := by
  rw [commandOf_forward, commandOf_tilt, stepState_cmdForward, stepState_cmdTilt, if_pos h, h]
  exact ⟨rfl, rfl⟩

/-- Up without Down drives forward (R127). -/
theorem commandOf_stepState_of_up (hup : flag bs s .up = true) (hdown : flag bs s .down = false) :
    (commandOf (stepState bs s)).forward = true ∧ (commandOf (stepState bs s)).tilt = 31#5 := by
  simp [stepState_cmdForward, stepState_cmdTilt, hup, hdown, neutralTilt]

/-- Settles O36: Down runs after Up, so it decides which of the two the Command shows. -/
theorem upDrivesForward : Obligations.UpDrivesForward := by
  unfold Obligations.UpDrivesForward
  simp only [down_eq_flag]
  exact ⟨fun _ => rfl, by decide, fun s bs hup => ⟨stepState bs s, _, exec_step bs s, stepState_result bs s,
    commandOf_stepState_of_up hup, commandOf_stepState_of_down⟩⟩

/-- Settles O37: Down is the last effect that writes forward and tilt. -/
theorem downTiltsAndOverridesUp : Obligations.DownTiltsAndOverridesUp := by
  unfold Obligations.DownTiltsAndOverridesUp
  simp only [down_eq_flag]
  exact ⟨fun _ => rfl, by decide, fun s bs hdown => ⟨stepState bs s, _, exec_step bs s, stepState_result bs s,
    commandOf_stepState_of_down hdown⟩⟩

end Sys2Proof.Machine
end

section
/-! PROOF. The turn of the Command and the trim: Left, Right and L1 (spec/43_control_state_machine.md R129 to R131, R136). -/

namespace Sys2Proof.Machine

variable {bs : ButtonState} {s : State}

/-- Without R1 the trim at the end is the one L1 leaves. -/
theorem trimAfter_without_r1 (h : flag bs s .r1 = false) : trimAfter bs s = trimAfterL1 bs s := by
  simp [trimAfter, h]

/-- A STEP without L1 and R1 keeps the trim. -/
theorem stepState_trim_unmoved (hl1 : flag bs s .l1 = false) (hr1 : flag bs s .r1 = false) :
    (stepState bs s).trimFlag = s.trimFlag ∧ (stepState bs s).trimMag = s.trimMag := by
  simp [stepState_trimFlag, stepState_trimMag, trimAfter_without_r1 hr1, trimAfterL1, hl1]

/-- A STEP with L1 and not R1 moves the trim as trimL1 says (R131). -/
theorem stepState_trim_of_l1 (hl1 : flag bs s .l1 = true) (hr1 : flag bs s .r1 = false) :
    (stepState bs s).trimFlag = (trimL1 s.trimFlag s.trimMag).1 ∧
      (stepState bs s).trimMag = (trimL1 s.trimFlag s.trimMag).2 := by
  simp [stepState_trimFlag, stepState_trimMag, trimAfter_without_r1 hr1, trimAfterL1, hl1]

/-- L1 or R1 puts the moved trim into the Command, whatever Left and Right are (R124). -/
theorem commandOf_stepState_of_trim (h : flag bs s .l1 = true ∨ flag bs s .r1 = true) :
    (commandOf (stepState bs s)).turnRight = (stepState bs s).trimFlag ∧
      (commandOf (stepState bs s)).turn = (stepState bs s).trimMag := by
  rw [commandOf_turnRight, commandOf_turn, stepState_cmdTurnRight, stepState_cmdTurn, stepState_trimFlag,
    stepState_trimMag]
  cases hr1 : flag bs s .r1 with
  | true => exact ⟨rfl, rfl⟩
  | false =>
    have hl1 : flag bs s .l1 = true := by simpa [hr1] using h
    simp [hl1, trimAfter_without_r1 hr1]

/-- Right without L1 and R1 turns fully right, with or without Left (R130). -/
theorem commandOf_stepState_of_right (hright : flag bs s .right = true) (hl1 : flag bs s .l1 = false)
    (hr1 : flag bs s .r1 = false) :
    (commandOf (stepState bs s)).turnRight = true ∧ (commandOf (stepState bs s)).turn = 63#6 := by
  simp [stepState_cmdTurnRight, stepState_cmdTurn, hright, hl1, hr1, fullRightTurn]

/-- Left without Right, L1 and R1 turns fully left (R129). -/
theorem commandOf_stepState_of_left (hleft : flag bs s .left = true) (hright : flag bs s .right = false)
    (hl1 : flag bs s .l1 = false) (hr1 : flag bs s .r1 = false) :
    (commandOf (stepState bs s)).turnRight = false ∧ (commandOf (stepState bs s)).turn = 0#6 := by
  simp [stepState_cmdTurnRight, stepState_cmdTurn, hleft, hright, hl1, hr1, fullLeftTurn]

/-- Settles O38: Left writes the Command alone, and Right, L1 and R1 write over it. -/
theorem leftSteersThisCycleOnly : Obligations.LeftSteersThisCycleOnly := by
  unfold Obligations.LeftSteersThisCycleOnly
  simp only [down_eq_flag]
  refine ⟨fun _ => rfl, by decide, fun s bs hleft => ⟨stepState bs s, _, exec_step bs s, stepState_result bs s,
    fun hl1 hr1 => ?_, commandOf_stepState_of_trim⟩⟩
  obtain ⟨hflag, hmag⟩ := stepState_trim_unmoved hl1 hr1
  exact ⟨hflag, hmag, fun hright => commandOf_stepState_of_left hleft hright hl1 hr1,
    fun hright => commandOf_stepState_of_right hright hl1 hr1⟩

/-- Settles O39: Right writes the Command alone, over Left; L1 and R1 write over it. -/
theorem rightSteersThisCycleOnly : Obligations.RightSteersThisCycleOnly := by
  unfold Obligations.RightSteersThisCycleOnly
  simp only [down_eq_flag]
  refine ⟨fun _ => rfl, by decide, fun s bs hright => ⟨stepState bs s, _, exec_step bs s, stepState_result bs s,
    fun hl1 hr1 => ?_, commandOf_stepState_of_trim⟩⟩
  obtain ⟨hflag, hmag⟩ := stepState_trim_unmoved hl1 hr1
  exact ⟨hflag, hmag, commandOf_stepState_of_right hright hl1 hr1⟩

/-- On the right side trimL1 saturates at 63 (R136). -/
theorem trimL1_on_the_right (m : BitVec 6) :
    (trimL1 true m).1 = true ∧ (trimL1 true m).2.toNat = min (m.toNat + 1) 63 := by
  refine ⟨rfl, ?_⟩
  simp only [trimL1, if_true, trimMagMax, BitVec.toNat_ofNat]
  omega

/-- On the left side below 63, trimL1 counts up (R136). -/
theorem trimL1_on_the_left {m : BitVec 6} (h : m.toNat < 63) :
    (trimL1 false m).1 = false ∧ (trimL1 false m).2.toNat = m.toNat + 1 := by
  have hnext : trimL1 false m = (false, BitVec.ofNat 6 (m.toNat + 1)) := by simp [trimL1, trimMagMax, h]
  rw [hnext, BitVec.toNat_ofNat]
  exact ⟨rfl, Nat.mod_eq_of_lt (by omega)⟩

/-- At the right end of the left side trimL1 flips to the right side (R136). -/
theorem trimL1_flips : trimL1 false 63#6 = (true, 0#6) := rfl

/-- Settles O40: BTN_L1 latches what trimL1 gives, and a STEP with L1 and not R1 leaves and returns the same. -/
theorem l1MovesTheTrimRight : Obligations.L1MovesTheTrimRight := by
  unfold Obligations.L1MovesTheTrimRight
  simp only [down_eq_flag]
  refine ⟨fun s => ⟨(trimL1 s.trimFlag s.trimMag).1, (trimL1 s.trimFlag s.trimMag).2, rfl, fun hright => ?_,
    fun hleft hlt => ?_, fun hleft hend => ?_⟩, by decide, fun s bs hl1 hr1 => ?_⟩
  · rw [hright]
    exact trimL1_on_the_right s.trimMag
  · rw [hleft]
    exact trimL1_on_the_left hlt
  · rw [hleft, hend, trimL1_flips]
    exact ⟨rfl, rfl⟩
  · obtain ⟨hflag, hmag⟩ := stepState_trim_of_l1 hl1 hr1
    exact ⟨stepState bs s, _, l1Effect s, exec_step bs s, stepState_result bs s, rfl, hflag, hmag,
      commandOf_stepState_of_trim (.inl hl1)⟩

end Sys2Proof.Machine
end

section
/-! PROOF. A held operand: k STEPs with the same flags (spec/43_control_state_machine.md R141). -/

namespace Sys2Proof.Machine

variable {bs : ButtonState} {s : State}

/-- k STEPs with one operand complete, and leave the k-th iterate of one STEP. -/
theorem runInstrs_replicate_step (bs : ButtonState) (s : State) (k : Nat) :
    runInstrs (List.replicate k (.step bs)) s = .next ((stepState bs)^[k] s) := by
  induction k generalizing s with
  | zero => rfl
  | succ k ih =>
    rw [List.replicate_succ, runInstrs, exec_step, andThen_next, ih, Function.iterate_succ_apply]

/-- The operand has the same flags at every one of the STEPs. -/
@[simp] theorem flag_iterate_stepState (bs : ButtonState) (s : State) (k : Nat) (b : Button) :
    flag bs ((stepState bs)^[k] s) b = flag bs s b := by
  induction k with
  | zero => rfl
  | succ k ih => rw [Function.iterate_succ_apply', flag_stepState, ih]

/-- A STEP with Triangle and neither Start nor Cross adds 3 to the throttle, up to 255 (R133). -/
theorem stepState_throttle_of_triangle (htriangle : flag bs s .triangle = true) (hstart : flag bs s .start = false)
    (hcross : flag bs s .cross = false) : (stepState bs s).throttle.toNat = min (s.throttle.toNat + 3) 255 := by
  have hup : throttleAfter bs s = throttleUp s.throttle := by simp [throttleAfter, htriangle, hstart, hcross]
  rw [stepState_throttle, hup, throttleUp_toNat]

/-- A STEP with L1 and not R1 moves the dial one position, up to 127 (R138). -/
theorem stepState_dial_of_l1 (hl1 : flag bs s .l1 = true) (hr1 : flag bs s .r1 = false) :
    (stepState bs s).dial = min (s.dial + 1) 127 := by
  obtain ⟨hflag, hmag⟩ := stepState_trim_of_l1 hl1 hr1
  rw [State.dial, hflag, hmag, dial_trimL1, State.dial]

/-- Select held for k STEPs toggles LIGHT k times. -/
theorem iterate_stepState_light (hselect : flag bs s .select = true) (hstart : flag bs s .start = false) (k : Nat) :
    ((stepState bs)^[k] s).light = (s.light ^^ decide (k % 2 = 1)) := by
  induction k with
  | zero => simp
  | succ k ih =>
    have hparity : decide ((k + 1) % 2 = 1) = !decide (k % 2 = 1) := by
      rw [← decide_not, decide_eq_decide]
      omega
    rw [Function.iterate_succ_apply', stepState_light_of_select (by simpa) (by simpa), ih, hparity, Bool.xor_not]

/-- Triangle held for k STEPs adds 3 each time, up to 255. -/
theorem iterate_stepState_throttle (htriangle : flag bs s .triangle = true) (hstart : flag bs s .start = false)
    (hcross : flag bs s .cross = false) (k : Nat) :
    ((stepState bs)^[k] s).throttle.toNat = s.throttle.toNat + min (3 * k) (255 - s.throttle.toNat) := by
  induction k with
  | zero => simp
  | succ k ih =>
    have hmax : s.throttle.toNat < 256 := s.throttle.isLt
    rw [Function.iterate_succ_apply', stepState_throttle_of_triangle (by simpa) (by simpa) (by simpa), ih]
    omega

/-- L1 held for k STEPs moves the dial k positions, up to 127. -/
theorem iterate_stepState_dial (hl1 : flag bs s .l1 = true) (hr1 : flag bs s .r1 = false) (k : Nat) :
    ((stepState bs)^[k] s).dial = min (s.dial + k) 127 := by
  induction k with
  | zero =>
    have hmag : s.trimMag.toNat < 64 := s.trimMag.isLt
    have hflag : s.trimFlag.toNat ≤ 1 := Bool.toNat_le s.trimFlag
    show s.dial = min s.dial 127
    unfold State.dial dial
    omega
  | succ k ih =>
    rw [Function.iterate_succ_apply', stepState_dial_of_l1 (by simpa) (by simpa), ih]
    omega

/-- Settles O32, by induction on the number of STEPs: the operand has the same flags at each, so each repeats its effect. -/
theorem heldButtonsReapplyAtEveryStep : Obligations.HeldButtonsReapplyAtEveryStep := by
  unfold Obligations.HeldButtonsReapplyAtEveryStep
  simp only [down_eq_flag]
  exact fun s bs k => ⟨(stepState bs)^[k] s, runInstrs_replicate_step bs s k,
    fun hselect hstart => iterate_stepState_light hselect hstart k,
    fun htriangle hstart hcross => iterate_stepState_throttle htriangle hstart hcross k,
    fun hl1 hr1 => iterate_stepState_dial hl1 hr1 k⟩

end Sys2Proof.Machine
end

section
/-! PROOF. The decoder and the encoder are inverse to each other: on every well-formed instruction under a legal `BTN_POS`,
and on every accepted operation word (spec/30_encoding.md sections 1 and 2). -/

namespace Sys2Proof

/-! ### The operand fields of an operation word -/

/-- The selector of an assembled word is the one it was assembled with (R66). -/
@[simp] theorem opsel_operationWord (sel : BitVec 2) (x : BitVec 30) : opsel (operationWord sel x) = sel :=
  BitVec.extractLsb'_append_eq_left

/-- A field of the operand stands in the word where it stands in the operand. -/
theorem extractLsb'_operationWord (sel : BitVec 2) {n : Nat} (x : BitVec n) {i k : Nat} (h : i + k ≤ 30) :
    (operationWord sel (x.setWidth 30)).extractLsb' i k = x.extractLsb' i k := by
  rw [operationWord, BitVec.extractLsb'_append_eq_of_add_le h, BitVec.extractLsb'_setWidth_of_le h]

/-- An operand that fills the field from bit 0 is read back whole. -/
theorem operand_operationWord (sel : BitVec 2) {n : Nat} (x : BitVec n) (h : n ≤ 30) :
    (operationWord sel (x.setWidth 30)).extractLsb' 0 n = x := by
  rw [extractLsb'_operationWord sel x (by omega), BitVec.extractLsb'_eq_self]

/-- A word is its selector and its low 30 bits (R66). -/
theorem operationWord_opsel (w : OpWord) : operationWord (opsel w) (w.extractLsb' 0 30) = w := by
  rw [operationWord, opsel, BitVec.extractLsb'_append_extractLsb'_eq_extractLsb' (by rfl), BitVec.extractLsb'_eq_self]

/-! ### Decoding what was encoded -/

/-- A word in a row of the opcode table has every reserved bit clear which the row's mask covers and its match leaves 0. -/
theorem and_eq_zero_of_row {w mask fixed reserved : OpWord} (h : w &&& mask = fixed)
    (hcovered : mask &&& reserved = reserved) (hclear : fixed &&& reserved = 0#32) : w &&& reserved = 0#32 := by
  rw [← hcovered, ← BitVec.and_assoc, h, hclear]

/-- The channel of a packed Command stands in bits 25..24 of its word (R69). -/
theorem channel_encodeWord (c : Command) :
    (operationWord 0b10#2 ((packCommand c).setWidth 30)).extractLsb' 24 2 = c.channel := by
  rw [extractLsb'_operationWord _ _ (by decide)]
  exact congrArg Command.channel (unpackCommand_packCommand c)

/-- An instruction is one of the four operations (R65) or the row of a flag (R75). -/
theorem instr_forms (i : Instr) : i = .poll ∨ (∃ bs, i = .step bs) ∨ (∃ c, i = .encode c) ∨ (∃ w, i = .transmit w) ∨
    ∃ b, i = effectInstr b := by
  have row {i : Instr} (b : Button) (h : i = effectInstr b) : i = .poll ∨ (∃ bs, i = .step bs) ∨ (∃ c, i = .encode c) ∨
      (∃ w, i = .transmit w) ∨ ∃ b, i = effectInstr b := .inr (.inr (.inr (.inr ⟨b, h⟩)))
  cases i with
  | poll => exact .inl rfl
  | step bs => exact .inr (.inl ⟨bs, rfl⟩)
  | encode c => exact .inr (.inr (.inl ⟨c, rfl⟩))
  | transmit word => exact .inr (.inr (.inr (.inl ⟨word, rfl⟩)))
  | btnRight => exact row .right rfl
  | btnDown => exact row .down rfl
  | btnLeft => exact row .left rfl
  | btnUp => exact row .up rfl
  | btnStart => exact row .start rfl
  | btnSelect => exact row .select rfl
  | btnSquare => exact row .square rfl
  | btnCross => exact row .cross rfl
  | btnCircle => exact row .circle rfl
  | btnTriangle => exact row .triangle rfl
  | btnR1 => exact row .r1 rfl
  | btnL1 => exact row .l1 rfl
  | btnR2 => exact row .r2 rfl
  | btnL2 => exact row .l2 rfl
  | btnUnused14 => exact row .unused14 rfl
  | btnUnused15 => exact row .unused15 rfl

/-- The code of a flag's row is the mask of the flag. -/
theorem encode_effectInstr (p : BtnPos) (b : Button) : encode p (effectInstr b) = .effect (p.mask b) := by
  cases b <;> rfl

/-- The word of a well-formed operation decodes to that operation (R66 to R70). -/
theorem decodeOperation_of_encode {p : BtnPos} {i : Instr} {w : OpWord} (hwf : i.wf = true)
    (h : encode p i = .operation w) : decodeOperation w = .ok i := by
  rcases instr_forms i with rfl | ⟨bs, rfl⟩ | ⟨c, rfl⟩ | ⟨word, rfl⟩ | ⟨b, rfl⟩
  · obtain rfl := Code.operation.inj h
    decide
  · obtain rfl := Code.operation.inj h
    refine decodeOperation_ok.mpr ⟨?_, fun hch => absurd hch.1 (by simp), ?_⟩
    · rw [opsel_operationWord]
      exact and_eq_zero_of_row (mask := 0xFFFF0000#32) (fixed := 0x40000000#32) (Laws.TableRow.step bs)
        (by decide) (by decide)
    · rw [operationOf_step (opsel_operationWord _ _), operand_operationWord _ _ (by decide)]
  · obtain rfl := Code.operation.inj h
    have hlegal : c.channel ≠ 0#2 := by simpa [Instr.wf, Command.wf] using hwf
    refine decodeOperation_ok.mpr ⟨?_, fun hch => hlegal (channel_encodeWord c ▸ hch.2), ?_⟩
    · rw [opsel_operationWord]
      exact and_eq_zero_of_row (mask := 0xFC008080#32) (fixed := 0x80000000#32) (Laws.TableRow.encode c)
        (by decide) (by decide)
    · rw [operationOf_encode (opsel_operationWord _ _), operand_operationWord _ _ (by decide),
        unpackCommand_packCommand]
  · obtain rfl := Code.operation.inj h
    refine decodeOperation_ok.mpr ⟨?_, fun hch => absurd hch.1 (by simp), ?_⟩
    · rw [opsel_operationWord]
      exact and_eq_zero_of_row (mask := 0xF0000000#32) (fixed := 0xC0000000#32) (Laws.TableRow.transmit word)
        (by decide) (by decide)
    · rw [operationOf_transmit (opsel_operationWord _ _), operand_operationWord _ _ (by decide)]
  · rw [encode_effectInstr] at h
    exact nomatch h

/-- On a legal `BTN_POS` the next flag of one flag's mask is that flag (R75). -/
theorem nextFlag_mask {p : BtnPos} (h : p.wf = true) (b : Button) : nextFlag p (p.mask b) = some b := by
  have hpressed : pressed p (p.mask b) b = true := by simp [pressed_mask]
  cases hnext : nextFlag p (p.mask b) with
  | none => simp [nextFlag_none.mp hnext b] at hpressed
  | some b' =>
    have hsame : p.bit b' = p.bit b := by simpa [pressed_mask] using nextFlag_some hnext
    rw [BtnPos.bit_inj h hsame]

/-- Settles O9: an operation's word has its row's reserved bits clear and its fields in place; a flag's mask presses that
flag alone. -/
theorem decodeOfEncodeIsTheInstruction : Obligations.DecodeOfEncodeIsTheInstruction := by
  intro p i hp hwf
  have operation {w : OpWord} (hw : encode p i = .operation w) : decode p (encode p i) = some i := by
    rw [hw, decode, decodeOperation_of_encode hwf hw]
    rfl
  rcases instr_forms i with rfl | ⟨bs, rfl⟩ | ⟨c, rfl⟩ | ⟨word, rfl⟩ | ⟨b, rfl⟩
  · exact operation rfl
  · exact operation rfl
  · exact operation rfl
  · exact operation rfl
  · rw [encode_effectInstr, decode, decodeEffect, nextFlag_mask hp, Option.map_some]

/-! ### Encoding what was decoded -/

/-- An operand field of ENCODE with bits 7 and 15 clear is the packed form of the Command it holds (R69). -/
theorem packCommand_unpackCommand {f : CommandField} (h7 : f.getLsbD 7 = false) (h15 : f.getLsbD 15 = false) :
    packCommand (unpackCommand f) = f := by
  apply BitVec.eq_of_getLsbD_eq
  intro i hi
  simp only [packCommand, unpackCommand, BitVec.getLsbD_append, BitVec.getLsbD_ofBool, BitVec.getLsbD_extractLsb']
  interval_cases i <;> simp [-BitVec.getLsbD_eq_getElem, h7, h15]

/-- A word with its format's reserved bits clear has a 0 wherever the reserved mask has a 1. -/
theorem getLsbD_of_reserved {w : OpWord} {sel : BitVec 2} (hsel : opsel w = sel)
    (h : w &&& reservedMask (opsel w) = 0#32) {j : Nat} (hj : (reservedMask sel).getLsbD j = true) :
    w.getLsbD j = false := by
  have hbit := reserved_clear h j
  rwa [hsel, hj, Bool.and_true] at hbit

/-- Where every bit of the operand above the low `n` is reserved, the low `n` bits under the selector are the word. -/
theorem operationWord_low {w : OpWord} {sel : BitVec 2} (n : Nat) (hsel : opsel w = sel)
    (hres : w &&& reservedMask (opsel w) = 0#32)
    (habove : ∀ j < 30, n ≤ j → (reservedMask sel).getLsbD j = true) :
    operationWord sel ((w.extractLsb' 0 n).setWidth 30) = w := by
  have hlow : (w.extractLsb' 0 n).setWidth 30 = w.extractLsb' 0 30 := by
    apply BitVec.eq_of_getLsbD_eq
    intro j hj
    simp only [BitVec.getLsbD_setWidth, BitVec.getLsbD_extractLsb', hj, decide_true, Bool.true_and, Nat.zero_add]
    by_cases hjn : j < n
    · simp [hjn]
    · simp [hjn, getLsbD_of_reserved hsel hres (habove j hj (by omega))]
  rw [hlow, ← hsel, operationWord_opsel]

/-- The code of the operation that an accepted word decodes to is that word (R66 to R70). -/
theorem encode_operationOf (p : BtnPos) {w : OpWord} (hres : w &&& reservedMask (opsel w) = 0#32) :
    encode p (operationOf w) = .operation w := by
  rcases opsel_cases w with hsel | hsel | hsel | hsel
  · have hword := operationWord_low 0 hsel hres (by decide)
    rw [BitVec.eq_nil (w.extractLsb' 0 0)] at hword
    rw [operationOf_poll hsel]
    exact congrArg Code.operation hword
  · rw [operationOf_step hsel]
    exact congrArg Code.operation (operationWord_low 16 hsel hres (by decide))
  · have h7 : w.getLsbD 7 = false := getLsbD_of_reserved hsel hres (by decide)
    have h15 : w.getLsbD 15 = false := getLsbD_of_reserved hsel hres (by decide)
    rw [operationOf_encode hsel, encode, packCommand_unpackCommand (by simpa) (by simpa)]
    exact congrArg Code.operation (operationWord_low 26 hsel hres (by decide))
  · rw [operationOf_transmit hsel]
    exact congrArg Code.operation (operationWord_low 28 hsel hres (by decide))

/-- The channel that the decoder reads is the word's channel field (R69). -/
theorem channel_unpackCommand (w : OpWord) : (unpackCommand (w.extractLsb' 0 26)).channel = w.extractLsb' 24 2 := by
  simp [unpackCommand, BitVec.extractLsb'_extractLsb'_of_le]

/-- An accepted word decodes to a well-formed operation: an ENCODE word has a channel (R72). -/
theorem wf_of_decodeOperation {w : OpWord} {i : Instr} (h : decodeOperation w = .ok i) : i.wf = true := by
  obtain ⟨-, hch, rfl⟩ := decodeOperation_ok.mp h
  rcases opsel_cases w with hsel | hsel | hsel | hsel
  · rw [operationOf_poll hsel]; rfl
  · rw [operationOf_step hsel]; rfl
  · have hchannel : w.extractLsb' 24 2 ≠ 0#2 := fun h0 => hch ⟨hsel, h0⟩
    rw [operationOf_encode hsel]
    simpa [Instr.wf, Command.wf, channel_unpackCommand] using hchannel
  · rw [operationOf_transmit hsel]; rfl

/-- Settles O10: the reserved bits are 0 and the fields fill the rest, so assembling the fields again gives the word. -/
theorem encodeOfDecodeIsTheWord : Obligations.EncodeOfDecodeIsTheWord := by
  intro p w i h
  obtain ⟨hres, -, hop⟩ := decodeOperation_ok.mp h
  refine ⟨hop ▸ encode_operationOf p hres, wf_of_decodeOperation h, fun hsel => ?_, fun hsel => ?_, fun hsel => ?_,
    fun hsel => ?_⟩
  · rw [hop, operationOf_poll hsel]
  · rw [hop, operationOf_step hsel]
  · refine ⟨unpackCommand (w.extractLsb' 0 26), hop.trans (operationOf_encode hsel), ?_⟩
    simp [unpackCommand, BitVec.extractLsb'_extractLsb'_of_le]
  · rw [hop, operationOf_transmit hsel]

/-- Settles O8: each word is decoded by evaluation. -/
theorem writtenWordsDecodeAsTheTableSays : Obligations.WrittenWordsDecodeAsTheTableSays := by
  unfold Obligations.WrittenWordsDecodeAsTheTableSays
  refine ⟨?poll, ?step, ?encode, ?transmit, ?start, ?l1, ?unused, ?channelZero, ?reserved⟩ <;> decide

end Sys2Proof
end

section
/-! PROOF. The checksum nibble of a TransmissionWord over the six nibbles of its body
(spec/41_command_encoder.md section 2). -/

namespace Sys2Proof.Machine

open Sys2Proof.Spec

/-- Nibble j + 1 of a word is nibble j of its body (R102). -/
theorem wordNibble_succ (body : Body) (j : Nat) : wordNibble (wordOfBody body) (j + 1) = bodyNibble body j := by
  rw [wordNibble, Nat.mul_succ, Nat.add_comm, extractLsb'_wordOfBody, bodyNibble]

/-- Nibble 0 of a word is the checksum of its body (R101, R102). -/
theorem wordNibble_zero (body : Body) :
    wordNibble (wordOfBody body) 0 = (16 - nibbleSum body % 16) % 16 := by
  have hlow : (wordOfBody body).extractLsb' (4 * 0) 4 = checksumOf body := BitVec.eq_of_getLsbD_eq fun j hj => by
    rw [BitVec.getLsbD_extractLsb', decide_eq_true hj, Bool.true_and, Nat.mul_zero, Nat.zero_add, wordOfBody,
      getLsbD_assembleWord, if_pos hj]
  rw [wordNibble, hlow, checksumOf_toNat]

/-- Nibbles 1 to 6 of a word add up to the nibble sum of its body (R101). -/
theorem wordNibble_sum (body : Body) : wordNibble (wordOfBody body) 1 + wordNibble (wordOfBody body) 2 +
    wordNibble (wordOfBody body) 3 + wordNibble (wordOfBody body) 4 + wordNibble (wordOfBody body) 5 +
    wordNibble (wordOfBody body) 6 = nibbleSum body := by
  simp only [wordNibble_succ, nibbleSum]
  omega

/-- A legal Command has a body (R100). -/
theorem bodyOf_of_wf {c : Command} (hwf : c.wf = true) : ∃ body, bodyOf c = some body := by
  have hsome : (bodyOf c).isSome = true := (channelBody_isSome c.channel (packBody c)).trans hwf
  exact Option.isSome_iff_exists.mp hsome

/-- Settles O19: the word is the body over its checksum. -/
theorem checksumIsTheNegatedNibbleSum : Obligations.ChecksumIsTheNegatedNibbleSum := by
  intro c s hwf
  obtain ⟨body, hbody⟩ := bodyOf_of_wf hwf
  exact ⟨wordOfBody body, exec_encode_of_bodyOf hbody s, nibbleSum body, (wordNibble_sum body).symm, nibbleSum_le body,
    wordNibble_zero body⟩

/-- Settles O20: the checksum is what the nibble sum lacks to the next multiple of 16; the empty body lacks nothing. -/
theorem sevenNibblesSumToZero : Obligations.SevenNibblesSumToZero := by
  intro c s hwf
  obtain ⟨body, hbody⟩ := bodyOf_of_wf hwf
  refine ⟨wordOfBody body, exec_encode_of_bodyOf hbody s, ?_, fun hchannel => ?_⟩
  · have hseven : ((List.range 7).map (wordNibble (wordOfBody body))).sum =
        wordNibble (wordOfBody body) 0 + nibbleSum body := by
      rw [← wordNibble_sum]
      simp [List.range_succ, Nat.add_assoc]
    rw [hseven, wordNibble_zero]
    omega
  · obtain rfl : 0#24 = body := Option.some.inj ((bodyOf_channel_two hchannel).symm.trans hbody)
    decide

end Sys2Proof.Machine
end

section
/-! PROOF. A whole POLL: what it leaves in every register, its events in order, and that nothing in a link register before
it matters (spec/40_controller_link.md sections 1 and 2). -/

namespace Sys2Proof.Machine

open Sys2Proof.Spec

/-! ### Numbers written as sums of bits -/

/-- The number with the bits `f 0 … f (n - 1)`. -/
def bitSum (f : Nat → Bool) (n : Nat) : Nat :=
  ((List.range n).map fun i => (f i).toNat * 2 ^ i).sum

/-- One bit more is one summand more. -/
theorem bitSum_succ (f : Nat → Bool) (n : Nat) : bitSum f (n + 1) = 2 ^ n * (f n).toNat + bitSum f n := by
  simp [bitSum, List.range_succ, Nat.mul_comm, Nat.add_comm]

/-- A sum of `n` bits is below `2 ^ n`. -/
theorem bitSum_lt (f : Nat → Bool) (n : Nat) : bitSum f n < 2 ^ n := by
  induction n with
  | zero => simp [bitSum]
  | succ n ih =>
    have hbit : 2 ^ n * (f n).toNat ≤ 2 ^ n * 1 := Nat.mul_le_mul_left _ (Bool.toNat_le _)
    rw [bitSum_succ, Nat.pow_succ]
    omega

/-- Bit `j` of the sum is `f j`. -/
theorem testBit_bitSum (f : Nat → Bool) {n j : Nat} (hj : j < n) : (bitSum f n).testBit j = f j := by
  induction n with
  | zero => exact absurd hj (Nat.not_lt_zero j)
  | succ n ih =>
    rw [bitSum_succ, Nat.testBit_two_pow_mul_add _ (bitSum_lt f n)]
    rcases Nat.lt_succ_iff_lt_or_eq.mp hj with hlt | rfl
    · rw [if_pos hlt, ih hlt]
    · cases f j <;> simp

/-- Bit `j` of a response byte is the byte's j-th sample (spec/20_memory.md R50). -/
theorem getLsbD_responseByte (s : State) (n : Nat) {j : Nat} (hj : j < 8) :
    (responseByte s (n + 1)).getLsbD j = drawAt s (8 * n + j) := by
  have hbits : (responseByte s (n + 1)).getLsbD j =
      (decide (j < 8) && (bitSum (fun i => drawAt s (8 * n + i)) 8).testBit j) :=
    BitVec.getLsbD_ofNat ..
  rw [hbits, testBit_bitSum _ hj, decide_eq_true hj, Bool.true_and]

/-- Flag `i` of the ButtonState of a POLL is sample 24 + i inverted (R92). -/
theorem getLsbD_pollButtons (s : State) {i : Nat} (hi : i < 16) : (pollButtons s).getLsbD i = !drawAt s (24 + i) := by
  have hbits : (pollButtons s).getLsbD i = (decide (i < 16) && (bitSum (fun j => !drawAt s (24 + j)) 16).testBit i) :=
    BitVec.getLsbD_ofNat ..
  rw [hbits, testBit_bitSum _ hi, decide_eq_true hi, Bool.true_and]

/-! ### The captured bytes -/

/-- RESP after a POLL is the five response bytes. -/
theorem BytesCaptured.resp_eq {s t : State} (h : BytesCaptured s t 5) : t.resp =
    #v[responseByte s 1, responseByte s 2, responseByte s 3, responseByte s 4, responseByte s 5] := by
  have entry (k : Nat) (hk : k < 5) : t.resp[k] = responseByte s (k + 1) := BitVec.eq_of_getLsbD_eq fun j hj => by
    rw [h.resp k hk hk j hj, getLsbD_responseByte s k hj]
  apply Vector.ext
  intro k hk
  rw [entry k hk]
  interval_cases k <;> rfl

/-- The ButtonState made of the last two response bytes is the one of samples 24 to 39 (R92). -/
theorem buttonsOf_responseBytes (s : State) : buttonsOf (responseByte s 4) (responseByte s 5) = pollButtons s := by
  apply BitVec.eq_of_getLsbD_eq
  intro i hi
  rw [getLsbD_pollButtons s hi]
  by_cases hlow : i < 8
  · rw [getLsbD_buttonsOf_low _ _ i hlow, getLsbD_responseByte s 3 hlow]
  · obtain ⟨j, rfl⟩ := Nat.exists_eq_add_of_le (Nat.le_of_not_lt hlow)
    have hj : j < 8 := by omega
    rw [getLsbD_buttonsOf_high _ _ j hj, getLsbD_responseByte s 4 hj, ← Nat.add_assoc]

/-- After n bytes, RXSHIFT holds the next response byte once its eight bits are exchanged. -/
theorem BytesCaptured.rxAfter_eq {s t : State} {n : Nat} (h : BytesCaptured s t n) (k : Nat) :
    rxAfter (beginByte k t) 8 = responseByte s (n + 1) := BitVec.eq_of_getLsbD_eq fun j hj => by
  rw [getLsbD_rxAfter_beginByte _ _ _ hj, h.laterDraw_eq, getLsbD_responseByte s n hj]

/-! ### The events -/

/-- The bits on CMD are those of LINK_TX, LSB first (R13, R80). -/
theorem cmdBit_eq_linkTx : ∀ n < 5, ∀ i < 8, cmdBit (8 * n + i) = (linkTx (n + 1)).getLsbD i := by decide

/-- The events of the byte exchange after n bytes are those of bit exchanges 8n to 8n + 7 and the gap (R88, R96). -/
theorem BytesCaptured.byte_events {s t : State} {n : Nat} (h : BytesCaptured s t n) (hn : n < 5) :
    ((List.range 8).flatMap fun i => exchangeEvents ((linkTx (n + 1)).getLsbD i) (laterDraw t i))
      ++ (if n + 1 < 5 then [.wait .tByteGap] else []) = (List.range 8).flatMap fun i => bitEvents s (8 * n + i) := by
  have without_gap : ∀ i < 7, exchangeEvents ((linkTx (n + 1)).getLsbD i) (laterDraw t i) = bitEvents s (8 * n + i) := by
    intro i hi
    have hgap : ¬((8 * n + i) % 8 = 7 ∧ 8 * n + i < 39) := by omega
    rw [bitEvents, if_neg hgap, List.append_nil, cmdBit_eq_linkTx n hn i (by omega), h.laterDraw_eq]
    rfl
  have with_gap : exchangeEvents ((linkTx (n + 1)).getLsbD 7) (laterDraw t 7)
      ++ (if n + 1 < 5 then [.wait .tByteGap] else []) = bitEvents s (8 * n + 7) := by
    have hgap : ((8 * n + 7) % 8 = 7 ∧ 8 * n + 7 < 39) ↔ n + 1 < 5 := by omega
    rw [bitEvents, if_congr hgap rfl rfl, cmdBit_eq_linkTx n hn 7 (by omega), h.laterDraw_eq]
    rfl
  rw [List.range_succ, List.flatMap_append, List.flatMap_append, List.append_assoc,
    List.flatMap_congr fun i hi => without_gap i (List.mem_range.mp hi)]
  simpa using with_gap

/-- Positions 0 to ab - 1 in a blocks of b. -/
theorem flatMap_range_mul {α : Type} (f : Nat → List α) (a b : Nat) :
    (List.range (b * a)).flatMap f = (List.range a).flatMap fun k => (List.range b).flatMap fun i => f (b * k + i) := by
  induction a with
  | zero => rfl
  | succ a ih =>
    rw [Nat.mul_succ, List.range_add, List.flatMap_append, ih, List.range_succ, List.flatMap_append, List.flatMap_map]
    simp

/-! ### The whole operation -/

/-- One byte exchange after n bytes: everything it changes, in the terms of the samples since `s`. -/
theorem BytesCaptured.byteExchange_eq {s t : State} {n : Nat} (h : BytesCaptured s t n) (hn : n < 5) :
    Machine.byteExchange t (n + 1) = { t with
      byteIdx := n + 1
      bitIdx := 7
      txShift := linkTx (n + 1)
      rxShift := responseByte s (n + 1)
      resp := (Machine.byteExchange t (n + 1)).resp
      clk := true
      cmd := (linkTx (n + 1)).getLsbD 7
      dat := t.dat.drop 8
      draws := t.draws + 8
      trace := t.trace ++ (List.range 8).flatMap fun i => bitEvents s (8 * n + i) } := by
  rw [Machine.byteExchange_eq, h.rxAfter_eq, List.append_assoc, h.byte_events hn]

/-- The first n + 1 byte exchanges of a POLL: everything they change. -/
theorem foldl_byteExchange_eq {s t : State} (h : BytesCaptured s t 0) {n : Nat} (hn : n < 5) :
    (List.range' 1 (n + 1)).foldl byteExchange t = { t with
      byteIdx := n + 1
      bitIdx := 7
      txShift := linkTx (n + 1)
      rxShift := responseByte s (n + 1)
      resp := ((List.range' 1 (n + 1)).foldl byteExchange t).resp
      clk := true
      cmd := (linkTx (n + 1)).getLsbD 7
      dat := t.dat.drop (8 * (n + 1))
      draws := t.draws + 8 * (n + 1)
      trace := t.trace ++ (List.range (n + 1)).flatMap fun k =>
        (List.range 8).flatMap fun i => bitEvents s (8 * k + i) } := by
  induction n with
  | zero =>
    have hone := h.byteExchange_eq hn
    simpa using hone
  | succ n ih =>
    have hsplit : (List.range' 1 (n + 1 + 1)).foldl byteExchange t =
        byteExchange ((List.range' 1 (n + 1)).foldl byteExchange t) (n + 1 + 1) := by
      rw [List.range'_1_concat, List.foldl_append, Nat.add_comm 1 (n + 1)]
      rfl
    have hnext := (h.foldl_byteExchange (n + 1)).byteExchange_eq hn
    rw [hsplit, hnext, ih (by omega)]
    simp [List.range_succ, List.drop_drop, Nat.mul_add, Nat.add_assoc]

/-- The state in which the first byte exchange of a POLL begins (R85). -/
def pollStarted (s : State) : State :=
  wait .tAttSetup (drive .att s.config.attActive (enter .poll s))

/-- The state in which a POLL has exchanged its five bytes. -/
def pollExchanged (s : State) : State :=
  [1, 2, 3, 4, 5].foldl byteExchange (pollStarted s)

/-- The end of a POLL: the hold time, the release of ATT, the return (R85). -/
def pollFinished (s : State) : State :=
  let s := wait .tAttHold s
  let s := drive .att (!s.config.attActive) s
  finishOp (.buttonState (buttonsOf s.resp[3] s.resp[4])) s

/-- The end of a POLL reads the build and RESP, which its own events leave. -/
theorem pollFinished_eq (s : State) : pollFinished s = finishOp (.buttonState (buttonsOf s.resp[3] s.resp[4]))
    (drive .att (!s.config.attActive) (wait .tAttHold s)) := rfl

/-- POLL is its start, the five byte exchanges and its end (R85). -/
theorem exec_poll_eq (s : State) : exec .poll s = .next (pollFinished (pollExchanged s)) := rfl

/-- Nothing is captured when the first byte exchange begins. -/
theorem pollStarted_captured (s : State) : BytesCaptured s (pollStarted s) 0 := .start rfl rfl

/-- The five byte exchanges: everything they change. -/
theorem pollExchanged_eq (s : State) : pollExchanged s = { pollStarted s with
    byteIdx := 5
    bitIdx := 7
    txShift := 0xFF#8
    rxShift := responseByte s 5
    resp := #v[responseByte s 1, responseByte s 2, responseByte s 3, responseByte s 4, responseByte s 5]
    clk := true
    cmd := true
    dat := s.dat.drop 40
    draws := s.draws + 40
    trace := (pollStarted s).trace ++ (List.range 40).flatMap (bitEvents s) } := by
  have hcaptured := (pollStarted_captured s).foldl_byteExchange 5
  have hbytes := foldl_byteExchange_eq (pollStarted_captured s) (n := 4) (by decide)
  rw [hcaptured.resp_eq, ← flatMap_range_mul] at hbytes
  exact hbytes

/-- POLL completes from every state and leaves `afterPoll` (R85, R93, R96). -/
theorem exec_poll (s : State) : exec .poll s = .next (afterPoll s) := by
  have hbuttons : buttonsOf (pollExchanged s).resp[3] (pollExchanged s).resp[4] = pollButtons s := by
    rw [← buttonsOf_responseBytes]
    simp only [pollExchanged_eq]
    rfl
  rw [exec_poll_eq, pollFinished_eq, hbuttons, pollExchanged_eq]
  simp only [finishOp, drive, wait, emit, enter, pollStarted, afterPoll, pollTrace, List.append_assoc]
  rfl

/-- The number of events of a POLL does not depend on the samples: six for each bit exchange, the gaps, and the ends. -/
theorem length_pollTrace (s : State) : (pollTrace s).length = 248 := by
  have hbit (n : Nat) : (bitEvents s n).length = 6 + if n % 8 = 7 ∧ n < 39 then 1 else 0 := by
    rw [bitEvents, List.length_append]
    split <;> rfl
  have hbits : ((List.range 40).flatMap (bitEvents s)).length = 244 := by
    rw [List.length_flatMap, List.map_congr_left fun n _ => hbit n]
    decide
  rw [pollTrace, List.length_append, List.length_append, hbits]
  rfl

/-- Settles O11: the loops of POLL are five byte exchanges of eight bit exchanges, each known with everything it changes. -/
theorem pollCompletesWithItsWholeEffect : Obligations.PollCompletesWithItsWholeEffect :=
  fun s => ⟨exec_poll s, length_pollTrace s⟩

/-- On the clock and the data lines a bit exchange is four events (R88). -/
theorem wireEvents_bitEvents (s : State) (n : Nat) : wireEvents (bitEvents s n) =
    [.drive .clk false, .drive .cmd (cmdBit n), .sample (drawAt s n), .drive .clk true] := by
  rw [bitEvents, wireEvents, List.filter_append]
  split <;> rfl

/-- On the clock and the data lines a POLL is its 40 bit exchanges, eight for each byte of LINK_TX. -/
theorem wireEvents_pollTrace (s : State) : wireEvents (pollTrace s) = (List.range 5).flatMap fun k =>
    (List.range 8).flatMap fun i =>
      [.drive .clk false, .drive .cmd ((linkTx (k + 1)).getLsbD i), .sample (drawAt s (8 * k + i)), .drive .clk true] := by
  have hends : wireEvents (pollTrace s) = (List.range (8 * 5)).flatMap fun n => wireEvents (bitEvents s n) := by
    simp [pollTrace, wireEvents, List.filter_append, List.filter_flatMap]
  rw [hends, flatMap_range_mul]
  refine List.flatMap_congr fun k hk => List.flatMap_congr fun i hi => ?_
  rw [wireEvents_bitEvents, cmdBit_eq_linkTx k (List.mem_range.mp hk) i (List.mem_range.mp hi)]

/-- Settles O12: byte k + 1 of LINK_TX is driven in bit exchanges 8k to 8k + 7, whose samples are the bits of
RESP[k + 1]. -/
theorem pollExchangesTheFixedBytesLsbFirst : Obligations.PollExchangesTheFixedBytesLsbFirst := by
  intro s
  refine ⟨afterPoll s, pollTrace s, exec_poll s, rfl, wireEvents_pollTrace s, fun k i hi => ?_⟩
  obtain ⟨t, hexec, hcaptured, -⟩ := exec_poll_captures s
  obtain rfl : afterPoll s = t := Host.Outcome.next.inj ((exec_poll s).symm.trans hexec)
  exact hcaptured.resp k.val k.isLt k.isLt i hi

/-- Settles O15: `afterPoll` names none of the five registers' old values. -/
theorem pollIgnoresStaleLinkRegisters : Obligations.PollIgnoresStaleLinkRegisters := by
  intro s a b c d r
  rw [exec_poll, exec_poll]
  rfl

end Sys2Proof.Machine
end

section
/-! PROOF. A whole TRANSMIT: what it leaves in every register, how long its frame lasts, and the levels on the emitter lines
inside a symbol (spec/42_pulse_transmitter.md sections 1 to 3). -/

namespace Sys2Proof.Machine

open Sys2Proof.Spec

/-! ### The operation -/

/-- The frame of the statements is the symbols of the frame's pairs (R109 to R111). -/
theorem frame_eq_framePairs (w : TxWord) : frame w = (framePairs w).flatMap pairSymbols := by
  have hbit (b : Bool) : (if b then [.mark 30, .space 34] else [.mark 14, .space 18]) = pairSymbols (bitPair b) := by
    cases b <;> rfl
  have hdown : (List.range 28).reverse = (List.range 28).map (27 - ·) := by decide
  simp only [frame, framePairs, hbit, hdown, List.flatMap_cons, List.flatMap_append, List.flatMap_map, List.map_map]
  rfl

/-- TRANSMIT completes from every state on every word and leaves `afterTransmit` (R107, R118). -/
theorem exec_transmit (w : TxWord) (s : State) : exec (.transmit w) s = .next (afterTransmit w s) := by
  have hexec : exec (.transmit w) s = .next (finishOp .completed (symbolPair oneMark oneSpace
      ((List.range 28).reverse.foldl (dataPair w) (symbolPair hdrMark hdrSpace (symbolPair hdrMark hdrSpace
        (beginFrame s)))))) := rfl
  obtain ⟨t, ht, htrace⟩ := exec_transmit_appends_framePairs w s
  obtain rfl := Host.Outcome.next.inj (hexec.symm.trans ht)
  rw [← frame_eq_framePairs] at htrace
  rw [hexec, afterTransmit, ← htrace, foldl_dataPair _ _ _ (by simp only [symbolPair_eq])]
  simp [symbolPair_eq, finishOp, beginFrame, enter]

/-- Settles O21: the two header pairs, the 28 data pairs and the trailer pair are known with everything they change. -/
theorem transmitSendsTheFrame : Obligations.TransmitSendsTheFrame := exec_transmit

/-- Settles O25: `afterTransmit` does not name the old SYMIDX. -/
theorem transmitIgnoresAStaleSymbolCounter : Obligations.TransmitIgnoresAStaleSymbolCounter := by
  intro w s k
  rw [exec_transmit, exec_transmit]
  rfl

/-! ### The carrier inside a mark -/

/-- A waveform of a first segment and a rest lasts as long as both. -/
theorem waveTicks_cons (level : Bool) (n : Nat) (l : List (Bool × Nat)) :
    waveTicks ((level, n) :: l) = n + waveTicks l := by
  simp [waveTicks]

/-- Inside the first segment the level is the segment's. -/
theorem waveLevel_cons_lt {level : Bool} {n t : Nat} (l : List (Bool × Nat)) (h : t < n) :
    waveLevel ((level, n) :: l) t = level := if_pos h

/-- After the first segment the level is the rest's. -/
theorem waveLevel_cons_ge {level : Bool} {n t : Nat} (l : List (Bool × Nat)) (h : n ≤ t) :
    waveLevel ((level, n) :: l) t = waveLevel l (t - n) := if_neg (by omega)

/-- The shapes of a carrier with some time left: it is cut in its first on phase, it is cut in its first off phase, or a
whole cycle precedes the rest (R114). -/
theorem carrier_cases (τ : Timing) (fuel : Nat) {left : Nat} (h : 0 < left) :
    (left ≤ τ.tCarrierOn ∧ carrier τ (fuel + 1) left = [(true, left)]) ∨
    (τ.tCarrierOn < left ∧ left ≤ τ.tCarrierOn + τ.tCarrierOff ∧
      carrier τ (fuel + 1) left = [(true, τ.tCarrierOn), (false, left - τ.tCarrierOn)]) ∨
    (τ.tCarrierOn + τ.tCarrierOff < left ∧ carrier τ (fuel + 1) left =
      (true, τ.tCarrierOn) :: (false, τ.tCarrierOff) :: carrier τ fuel (left - (τ.tCarrierOn + τ.tCarrierOff))) := by
  rw [carrier, if_neg (by omega)]
  by_cases hon : left ≤ τ.tCarrierOn
  · exact .inl ⟨hon, if_pos hon⟩
  · rw [if_neg hon]
    by_cases hoff : left ≤ τ.tCarrierOn + τ.tCarrierOff
    · exact .inr (.inl ⟨by omega, hoff, if_pos hoff⟩)
    · exact .inr (.inr ⟨by omega, if_neg hoff⟩)

section

variable {τ : Timing} (hpos : 0 < τ.tCarrierOn + τ.tCarrierOff)
include hpos

/-- With fuel for every cycle the carrier lasts the whole time. -/
theorem waveTicks_carrier (fuel left : Nat) (h : left ≤ fuel) : waveTicks (carrier τ fuel left) = left := by
  induction fuel generalizing left with
  | zero =>
    obtain rfl : left = 0 := by omega
    rfl
  | succ fuel ih =>
    rcases Nat.eq_zero_or_pos left with rfl | hleft
    · rfl
    · rcases carrier_cases τ fuel hleft with ⟨-, hc⟩ | ⟨hon, -, hc⟩ | ⟨hcycle, hc⟩
      · rw [hc]; rfl
      · rw [hc, waveTicks_cons, waveTicks_cons]
        show _ + (_ + 0) = _
        omega
      · rw [hc, waveTicks_cons, waveTicks_cons, ih _ (by omega)]
        omega

/-- At every tick of its time the carrier is on exactly in the on phase of its cycle (R114, D16). -/
theorem waveLevel_carrier (fuel left t : Nat) (h : left ≤ fuel) (ht : t < left) :
    waveLevel (carrier τ fuel left) t = decide (t % (τ.tCarrierOn + τ.tCarrierOff) < τ.tCarrierOn) := by
  induction fuel generalizing left t with
  | zero => omega
  | succ fuel ih =>
    have in_on_phase {l : List (Bool × Nat)} {n : Nat} (hn : t < n) (hle : n ≤ τ.tCarrierOn) :
        waveLevel ((true, n) :: l) t = decide (t % (τ.tCarrierOn + τ.tCarrierOff) < τ.tCarrierOn) := by
      rw [waveLevel_cons_lt l hn, Nat.mod_eq_of_lt (by omega), eq_comm, decide_eq_true_eq]
      omega
    have in_off_phase {l : List (Bool × Nat)} {n : Nat} (hon : τ.tCarrierOn ≤ t) (hn : t < τ.tCarrierOn + n)
        (hle : n ≤ τ.tCarrierOff) : waveLevel ((true, τ.tCarrierOn) :: (false, n) :: l) t =
          decide (t % (τ.tCarrierOn + τ.tCarrierOff) < τ.tCarrierOn) := by
      rw [waveLevel_cons_ge _ hon, waveLevel_cons_lt l (by omega), Nat.mod_eq_of_lt (by omega), eq_comm,
        decide_eq_false_iff_not]
      omega
    rcases carrier_cases τ fuel (left := left) (by omega) with ⟨hon, hc⟩ | ⟨hon, hoff, hc⟩ | ⟨hcycle, hc⟩
    · rw [hc]
      exact in_on_phase ht hon
    · rw [hc]
      by_cases hphase : t < τ.tCarrierOn
      · exact in_on_phase hphase le_rfl
      · exact in_off_phase (by omega) (by omega) (by omega)
    · rw [hc]
      by_cases hphase : t < τ.tCarrierOn
      · exact in_on_phase hphase le_rfl
      · by_cases hfirst : t < τ.tCarrierOn + τ.tCarrierOff
        · exact in_off_phase (by omega) hfirst le_rfl
        · rw [waveLevel_cons_ge _ (by omega), waveLevel_cons_ge _ (by omega), Nat.sub_sub, ih _ _ (by omega) (by omega),
            ← Nat.mod_eq_sub_mod (by omega)]

/-- A mark lasts its units (R114). -/
theorem waveTicks_mark (n : Nat) : waveTicks (eventWave τ (.mark n)) = n * τ.tUnit :=
  waveTicks_carrier hpos _ _ le_rfl

end

/-- A space lasts its units (R115). -/
theorem waveTicks_space (τ : Timing) (n : Nat) : waveTicks (eventWave τ (.space n)) = n * τ.tUnit := rfl

/-- A space is off, and so are the lines after it (R115, R118). -/
theorem waveLevel_space (τ : Timing) (n t : Nat) : waveLevel (eventWave τ (.space n)) t = false := by
  unfold eventWave waveLevel
  split <;> rfl

/-- A legal timing has a carrier cycle of some length (R11). -/
theorem carrierCycle_pos {τ : Timing} (h : τ.wf = true) : 0 < τ.tCarrierOn + τ.tCarrierOff := by
  simp only [Timing.wf, Bool.and_eq_true, decide_eq_true_eq] at h
  obtain ⟨⟨-, hoff⟩, -⟩ := h
  omega

/-- Settles O24: the carrier repeats its cycle until the mark is over. -/
theorem markCarriesTheCarrierAndSpaceIsOff : Obligations.MarkCarriesTheCarrierAndSpaceIsOff := by
  intro τ n hwf
  have hpos := carrierCycle_pos hwf
  exact ⟨waveTicks_mark hpos n, fun t ht => waveLevel_carrier hpos _ _ t le_rfl ht, waveTicks_space τ n, waveLevel_space τ n⟩

/-! ### The length of a frame -/

/-- The units of a run of pairs. -/
def pairsUnits (qs : List (Nat × Nat)) : Nat :=
  (qs.map fun q => q.1 + q.2).sum

/-- The symbols of a run of pairs last the pairs' units (R113). -/
theorem traceUnits_pairs (qs : List (Nat × Nat)) : traceUnits (qs.flatMap pairSymbols) = pairsUnits qs := by
  induction qs with
  | nil => rfl
  | cons q rest ih =>
    simp only [traceUnits, pairsUnits, pairSymbols, List.flatMap_cons, List.map_append, List.sum_append, List.map_cons,
      List.sum_cons] at ih ⊢
    rw [ih]
    rfl

/-- On the emitter lines each unit of a run of pairs lasts T_UNIT (R108, R116). -/
theorem waveTicks_pairs {τ : Timing} (hpos : 0 < τ.tCarrierOn + τ.tCarrierOff) (qs : List (Nat × Nat)) :
    waveTicks (traceWave τ (qs.flatMap pairSymbols)) = pairsUnits qs * τ.tUnit := by
  have happend (l m : List (Bool × Nat)) : waveTicks (l ++ m) = waveTicks l + waveTicks m := by simp [waveTicks]
  induction qs with
  | nil => simp [traceWave, waveTicks, pairsUnits]
  | cons q rest ih =>
    have hpair : traceWave τ ((q :: rest).flatMap pairSymbols) =
        eventWave τ (.mark q.1) ++ (eventWave τ (.space q.2) ++ traceWave τ (rest.flatMap pairSymbols)) := rfl
    have hunits : pairsUnits (q :: rest) = q.1 + q.2 + pairsUnits rest := rfl
    rw [hpair, happend, happend, waveTicks_mark hpos, waveTicks_space, ih, hunits, Nat.add_mul, Nat.add_mul, Nat.add_assoc]

/-- The pairs of a run of data bits last 32 units each, and 32 more for a 1 (R110). -/
theorem pairsUnits_data (w : TxWord) (l : List Nat) :
    pairsUnits (l.map fun j => bitPair (w.getLsbD j)) = 32 * l.length + 32 * l.countP fun j => w.getLsbD j := by
  induction l with
  | nil => rfl
  | cons j rest ih =>
    have hunits : pairsUnits ((j :: rest).map fun j => bitPair (w.getLsbD j)) =
        (bitPair (w.getLsbD j)).1 + (bitPair (w.getLsbD j)).2 + pairsUnits (rest.map fun j => bitPair (w.getLsbD j)) := rfl
    rw [hunits, ih, List.countP_cons, List.length_cons]
    cases w.getLsbD j
    · simp [bitPair, zeroMark, zeroSpace]; omega
    · simp [bitPair, oneMark, oneSpace]; omega

/-- The pairs of a frame last 1072 units, and 32 more for each 1 of the word (R113). -/
theorem pairsUnits_framePairs (w : TxWord) : pairsUnits (framePairs w) = 1072 + 32 * ones w := by
  have hparts : pairsUnits (framePairs w) =
      56 + (56 + (pairsUnits ((List.range 28).reverse.map fun j => bitPair (w.getLsbD j)) + 64)) := by
    simp [pairsUnits, framePairs, hdrMark, hdrSpace, oneMark, oneSpace]
  have hones : (List.range 28).reverse.countP (fun j => w.getLsbD j) = ones w := List.countP_reverse
  rw [hparts, pairsUnits_data, hones, List.length_reverse, List.length_range]
  omega

/-- Settles O23: a frame is its pairs, and the units of these are added up over the word's bits. -/
theorem frameLastsTenSeventyTwoPlusThirtyTwoPerOne : Obligations.FrameLastsTenSeventyTwoPlusThirtyTwoPerOne := by
  intro w s τ hwf
  refine ⟨afterTransmit w s, frame w, exec_transmit w s, rfl, ?_, ?_⟩
  · rw [frame_eq_framePairs, traceUnits_pairs, pairsUnits_framePairs]
  · rw [frame_eq_framePairs, waveTicks_pairs (carrierCycle_pos hwf), pairsUnits_framePairs]

end Sys2Proof.Machine
end

section
/-! PROOF. The closed form of a STEP, and what a caller sees of it: the per-cycle reset, the effects' order, the Command
(spec/43_control_state_machine.md sections 1 to 4). -/

namespace Sys2Proof.Machine

open Sys2Proof.Spec

variable (bs : ButtonState) (s : State)

/-! ### The closed form -/

/-- What a STEP keeps: the link and transmitter registers, the pins, the build and the outside world (R36). -/
theorem stepState_frame : stepState bs s = { s with
    light := (stepState bs s).light
    throttle := (stepState bs s).throttle
    trimFlag := (stepState bs s).trimFlag
    trimMag := (stepState bs s).trimMag
    cmdTurnRight := (stepState bs s).cmdTurnRight
    cmdTurn := (stepState bs s).cmdTurn
    cmdForward := (stepState bs s).cmdForward
    cmdTilt := (stepState bs s).cmdTilt
    phase := .idle
    effects := 0#16
    result := .command (commandOf (stepState bs s)) } := by
  rw [stepState, runEffects_eq]
  rfl

/-! The closed forms of the statements, with the flags as the effects read them. -/

theorem stepThrottle_eq : stepThrottle bs s =
    let t := if flag bs s .start then 0 else s.throttle.toNat
    let t := if flag bs s .triangle then min (t + 3) 255 else t
    if flag bs s .cross then t - 3 else t := rfl

theorem stepDial_eq : stepDial bs s =
    let d := if flag bs s .l1 then min (s.dial + 1) 127 else s.dial
    if flag bs s .r1 then d - 1 else d := rfl

theorem stepTurn_eq : stepTurn bs s =
    if flag bs s .l1 || flag bs s .r1 then (decide (64 ≤ stepDial bs s), BitVec.ofNat 6 (stepDial bs s % 64))
    else if flag bs s .right then (true, 63#6) else if flag bs s .left then (false, 0#6)
    else (s.trimFlag, s.trimMag) := rfl

/-- A dial position determines the trim flag (R138). -/
theorem decide_le_dial (f : Bool) (m : BitVec 6) : decide (64 ≤ dial f m) = f := by
  have hm := m.isLt
  cases f
  · exact decide_eq_false (by simp only [dial, Bool.toNat_false]; omega)
  · exact decide_eq_true (by simp only [dial, Bool.toNat_true]; omega)

/-- A dial position determines the trim magnitude (R138). -/
theorem ofNat_dial_mod (f : Bool) (m : BitVec 6) : BitVec.ofNat 6 (dial f m % 64) = m := by
  have hm : dial f m % 64 = m.toNat := by
    have := m.isLt
    unfold dial
    omega
  rw [hm, BitVec.ofNat_toNat, BitVec.setWidth_eq]

/-- The trim after L1, on the dial. -/
theorem dial_trimAfterL1 : dial (trimAfterL1 bs s).1 (trimAfterL1 bs s).2 =
    if flag bs s .l1 then min (s.dial + 1) 127 else s.dial := by
  unfold trimAfterL1
  split
  · exact dial_trimL1 _ _
  · rfl

/-- The trim after L1 and R1, on the dial. -/
theorem dial_trimAfter : dial (trimAfter bs s).1 (trimAfter bs s).2 = stepDial bs s := by
  rw [stepDial_eq, ← dial_trimAfterL1]
  unfold trimAfter
  split
  · exact dial_trimR1 _ _
  · rfl

/-- The dial after a STEP (R124, R138). -/
theorem stepState_dial : (stepState bs s).dial = stepDial bs s := by
  rw [State.dial, stepState_trimFlag, stepState_trimMag, dial_trimAfter]

/-- The throttle after the ten effects, as a number. -/
theorem throttleAfter_toNat : (throttleAfter bs s).toNat = stepThrottle bs s := by
  rw [stepThrottle_eq, throttleAfter]
  simp only [apply_ite BitVec.toNat, throttleUp_toNat, throttleDown_toNat]
  rfl

/-- The turn after the ten effects: the moved trim, or Right's, or Left's, or the trim (R123, R124). -/
theorem stepState_turn : ((stepState bs s).cmdTurnRight, (stepState bs s).cmdTurn) = stepTurn bs s := by
  have hmoved : trimAfter bs s = (decide (64 ≤ stepDial bs s), BitVec.ofNat 6 (stepDial bs s % 64)) := by
    rw [← dial_trimAfter, decide_le_dial, ofNat_dial_mod]
  rw [stepState_cmdTurnRight, stepState_cmdTurn, stepTurn_eq, ← hmoved]
  cases hr1 : flag bs s .r1
  · rw [trimAfter_without_r1 hr1]
    cases flag bs s .l1 <;> cases flag bs s .right <;> cases flag bs s .left <;> rfl
  · cases flag bs s .l1 <;> rfl

/-- A STEP leaves the closed form of the statements. -/
theorem stepState_eq_afterStep : stepState bs s = afterStep bs s := by
  have hlight : (stepState bs s).light = stepLight bs s := stepState_light bs s
  have hthrottle : (stepState bs s).throttle = BitVec.ofNat 8 (stepThrottle bs s) := by
    rw [stepState_throttle, ← throttleAfter_toNat, BitVec.ofNat_toNat, BitVec.setWidth_eq]
  have hflag : (stepState bs s).trimFlag = decide (64 ≤ stepDial bs s) := by
    rw [← stepState_dial, State.dial, decide_le_dial]
  have hmag : (stepState bs s).trimMag = BitVec.ofNat 6 (stepDial bs s % 64) := by
    rw [← stepState_dial, State.dial, ofNat_dial_mod]
  have hturnRight : (stepState bs s).cmdTurnRight = (stepTurn bs s).1 := congrArg Prod.fst (stepState_turn bs s)
  have hturn : (stepState bs s).cmdTurn = (stepTurn bs s).2 := congrArg Prod.snd (stepState_turn bs s)
  have hforward : (stepState bs s).cmdForward = (down s bs .up && !down s bs .down) :=
    (stepState_cmdForward bs s).trans (Bool.and_comm _ _)
  have htilt : (stepState bs s).cmdTilt = if down s bs .down then 0#5 else 31#5 := stepState_cmdTilt bs s
  rw [stepState_frame]
  simp only [commandOf, stepState_config, hlight, hthrottle, hflag, hmag, hturnRight, hturn, hforward, htilt]
  rfl

/-- Settles O26: every register a STEP writes is computed from the flags, and the rest is its frame. -/
theorem stepComputesItsClosedForm : Obligations.StepComputesItsClosedForm :=
  fun bs s => congrArg Host.Outcome.next (stepState_eq_afterStep bs s)

/-! ### The reset of the transient fields -/

variable {bs s}

/-- A STEP forgets what the transient fields held (R43, R123). -/
theorem exec_step_ignores_stale (r : Bool) (t : BitVec 6) (f : Bool) (l : BitVec 5) :
    exec (.step bs) { s with cmdTurnRight := r, cmdTurn := t, cmdForward := f, cmdTilt := l } = exec (.step bs) s := rfl

/-- With no effect flag pressed the effects do nothing. -/
theorem runEffects_none (h : ∀ b ∈ effectOrder, flag bs s b = false) : runEffects bs s = s := by
  have skip (l : List Button) (hl : ∀ b ∈ l, flag bs s b = false) : l.foldl (effectIfPressed bs) s = s := by
    induction l with
    | nil => rfl
    | cons b rest ih =>
      have hb : effectIfPressed bs s b = s := if_neg (by simpa [flag] using hl b (by simp))
      rw [List.foldl_cons, hb, ih fun b' hb' => hl b' (by simp [hb'])]
  exact skip effectOrder h

/-- Without Start and Select a STEP keeps LIGHT. -/
theorem stepState_light_kept (hstart : flag bs s .start = false) (hselect : flag bs s .select = false) :
    (stepState bs s).light = s.light := by
  simp [stepState_light, hstart, hselect]

/-- Without Start, Triangle and Cross a STEP keeps THROTTLE. -/
theorem stepState_throttle_kept (hstart : flag bs s .start = false) (htriangle : flag bs s .triangle = false)
    (hcross : flag bs s .cross = false) : (stepState bs s).throttle = s.throttle := by
  simp [stepState_throttle, throttleAfter, hstart, htriangle, hcross]

/-- Settles O27: the reset writes the transient fields before any effect, and each clause is one field of the end state. -/
theorem stepResetsTransientsAndKeepsLatches : Obligations.StepResetsTransientsAndKeepsLatches := by
  unfold Obligations.StepResetsTransientsAndKeepsLatches
  simp only [down_eq_flag]
  refine ⟨fun bs s => rfl, fun bs s hnone => ?_, fun bs s => ⟨stepState bs s, _, exec_step bs s, stepState_result bs s,
    ?up, ?down, ?left, ?right, ?trim, ?light, ?throttle⟩⟩
  · rw [exec_step, stepState, runEffects_none (s := beginStep bs s) hnone]
    rfl
  case up => exact fun hup hdown => (commandOf_stepState_of_up hup hdown).1
  case down => exact fun hdown => (commandOf_stepState_of_down hdown).2
  case left => exact commandOf_stepState_of_left
  case right => exact commandOf_stepState_of_right
  case trim => exact commandOf_stepState_of_trim
  case light => exact stepState_light_kept
  case throttle => exact stepState_throttle_kept

/-! ### The order of the effects -/

/-- An effect keeps the build (R29). -/
@[simp] theorem effectOf_config (b : Button) (s : State) : (effectOf b s).config = s.config := by
  rw [effectOf_frame]

/-- Running the instructions of the pressed flags of a list is applying their effects in its order. -/
theorem runInstrs_pressed (l : List Button) {u : State} (h : u.config = s.config) :
    runInstrs ((l.filter (down s bs)).map effectInstr) u = .next (l.foldl (effectIfPressed bs) u) := by
  induction l generalizing u with
  | nil => rfl
  | cons b rest ih =>
    have hpressed : pressed u.config.btnPos bs b = down s bs b := by rw [h]; rfl
    cases hb : down s bs b with
    | false =>
      rw [List.filter_cons_of_neg (by simp [hb]), List.foldl_cons, effectIfPressed, hpressed, hb, if_neg (by simp)]
      exact ih h
    | true =>
      have hconfig : (effectOf b u).config = s.config := (effectOf_config b u).trans h
      rw [List.filter_cons_of_pos hb, List.map_cons, runInstrs, exec_effectInstr, andThen_next, ih hconfig,
        List.foldl_cons, effectIfPressed, hpressed, hb, if_pos rfl]

/-- With L1 and R1 the trim moves up to the end stop and back down (R124). -/
theorem stepState_dial_of_both (hl1 : flag bs s .l1 = true) (hr1 : flag bs s .r1 = true) :
    (stepState bs s).dial = min (s.dial + 1) 127 - 1 := by
  rw [stepState_dial, stepDial_eq, if_pos hr1, if_pos hl1]

/-- With Triangle and Cross the throttle goes up to its maximum first (R133, R134). -/
theorem stepState_throttle_of_both (hstart : flag bs s .start = false) (htriangle : flag bs s .triangle = true)
    (hcross : flag bs s .cross = true) : (stepState bs s).throttle.toNat = min (s.throttle.toNat + 3) 255 - 3 := by
  simp [stepState_throttle, throttleAfter, hstart, htriangle, hcross, throttleUp_toNat, throttleDown_toNat]

/-- Settles O28: applying the pressed effects one by one from the reset state is what STEP does before it returns. -/
theorem stepRunsPressedEffectsInTheFixedOrder : Obligations.StepRunsPressedEffectsInTheFixedOrder := by
  intro bs s
  refine ⟨runEffects bs (beginStep bs s), stepState bs s, _, runInstrs_pressed effectOrder rfl, exec_step bs s, rfl,
    stepState_result bs s, ?_⟩
  simp only [down_eq_flag]
  refine ⟨?drive, ?turn, ?trim, ?dial, ?light, ?triangle, ?throttle⟩
  case drive => exact fun _ hdown => commandOf_stepState_of_down hdown
  case turn => exact fun _ hright => commandOf_stepState_of_right hright
  case trim => exact commandOf_stepState_of_trim
  case dial => exact stepState_dial_of_both
  case light => exact fun hstart hselect => (stepState_light_of_start hstart).trans hselect
  case triangle =>
    intro hstart htriangle hcross
    rw [stepState_throttle, throttleAfter_of_start hstart, htriangle, hcross]
    rfl
  case throttle => exact stepState_throttle_of_both

/-! ### What the Command can be -/

/-- A legal build has a channel and a legal `BTN_POS` (R11). -/
theorem channel_and_btnPos_of_wf {c : Config} (h : c.wf = true) : (c.channel != 0#2) = true ∧ c.btnPos.wf = true := by
  simp only [Config.wf, Bool.and_eq_true] at h
  obtain ⟨⟨⟨hchannel, hbtnPos⟩, -⟩, -⟩ := h
  exact ⟨hchannel, hbtnPos⟩

/-- Settles O30: the channel of the Command is the build's, and its tilt is the reset's or Down's. -/
theorem stepsCommandIsAlwaysEncodable : Obligations.StepsCommandIsAlwaysEncodable := by
  intro s u bs hwf
  have hchannel : (commandOf (stepState bs s)).channel = s.config.channel :=
    congrArg Config.channel (stepState_config bs s)
  have hcommand : (commandOf (stepState bs s)).wf = true := by
    rw [Command.wf, hchannel]
    exact (channel_and_btnPos_of_wf hwf).1
  obtain ⟨w, hencode⟩ := encodeIsTotalAndPure _ hcommand
  refine ⟨stepState bs s, _, _, exec_step bs s, stepState_result bs s, ?_, hencode u⟩
  rw [commandOf_tilt, stepState_cmdTilt]
  split
  · exact .inr rfl
  · exact .inl rfl

/-- No flag of the empty operand is pressed. -/
@[simp] theorem flag_zero (s : State) (b : Button) : flag 0#16 s b = false := BitVec.getLsbD_zero

/-- Settles O31: the second STEP has no flag to act on, so it keeps the latches and returns the reset values. -/
theorem secondStepKeepsLatchedAndResetsTransient : Obligations.SecondStepKeepsLatchedAndResetsTransient := by
  intro s bs
  have hlight := stepState_light_kept (flag_zero (stepState bs s) .start) (flag_zero _ .select)
  have hthrottle := stepState_throttle_kept (flag_zero (stepState bs s) .start) (flag_zero _ .triangle)
    (flag_zero _ .cross)
  refine ⟨stepState bs s, stepState 0#16 (stepState bs s), _, _, exec_step bs s, stepState_result bs s, exec_step _ _,
    stepState_result _ _, hlight, hthrottle, hlight, hthrottle, ?_, ?_⟩
  · rw [commandOf_forward, stepState_cmdForward, flag_zero, flag_zero]
    rfl
  · rw [commandOf_tilt, stepState_cmdTilt, flag_zero]
    rfl

/-! ### R1, Triangle and Cross, and the flags without an effect -/

/-- On the left side trimR1 saturates at 0 (R137). -/
theorem trimR1_on_the_left (m : BitVec 6) : (trimR1 false m).1 = false ∧ (trimR1 false m).2.toNat = m.toNat - 1 := by
  have hm := m.isLt
  refine ⟨rfl, ?_⟩
  simp only [trimR1, Bool.false_eq_true, if_false, trimMagMin, BitVec.toNat_ofInt]
  omega

/-- On the right side above 0, trimR1 counts down (R137). -/
theorem trimR1_on_the_right {m : BitVec 6} (h : 0 < m.toNat) :
    (trimR1 true m).1 = true ∧ (trimR1 true m).2.toNat = m.toNat - 1 := by
  have hm := m.isLt
  have hnext : trimR1 true m = (true, BitVec.ofNat 6 (m.toNat - 1)) := by simp [trimR1, trimMagMin, h]
  rw [hnext, BitVec.toNat_ofNat]
  exact ⟨rfl, Nat.mod_eq_of_lt (by omega)⟩

/-- At the left end of the right side trimR1 flips to the left side (R137). -/
theorem trimR1_flips : trimR1 true 0#6 = (false, 63#6) := rfl

/-- A STEP with R1 and not L1 moves the trim as trimR1 says (R132). -/
theorem stepState_trim_of_r1 (hl1 : flag bs s .l1 = false) (hr1 : flag bs s .r1 = true) :
    (stepState bs s).trimFlag = (trimR1 s.trimFlag s.trimMag).1 ∧
      (stepState bs s).trimMag = (trimR1 s.trimFlag s.trimMag).2 := by
  simp [stepState_trimFlag, stepState_trimMag, trimAfter, trimAfterL1, hl1, hr1]

/-- Two trims on one dial position are the same (R138). -/
theorem dial_inj {f f' : Bool} {m m' : BitVec 6} (h : dial f m = dial f' m') : f = f' ∧ m = m' := by
  exact ⟨by rw [← decide_le_dial f m, h, decide_le_dial], by rw [← ofNat_dial_mod f m, h, ofNat_dial_mod]⟩

/-- The dial stands at its right end exactly at (1, 63). -/
theorem dial_lt_of_ne {f : Bool} {m : BitVec 6} (h : ¬(f = true ∧ m = 63#6)) : dial f m < 127 := by
  have hm := m.isLt
  have hne : dial f m ≠ 127 := fun heq => h (dial_inj (m' := 63#6) (f' := true) heq)
  have hf := Bool.toNat_le f
  unfold dial at hne ⊢
  omega

/-- Settles O41: BTN_R1 latches what trimR1 gives; after L1 it undoes L1's step, but for the end stop, where L1 took none. -/
theorem r1MovesTheTrimLeft : Obligations.R1MovesTheTrimLeft := by
  unfold Obligations.R1MovesTheTrimLeft
  simp only [down_eq_flag]
  refine ⟨fun s => ⟨(trimR1 s.trimFlag s.trimMag).1, (trimR1 s.trimFlag s.trimMag).2, rfl, fun hleft => ?_,
    fun hright hlt => ?_, fun hright hend => ?_⟩, by decide, fun s bs hr1 => ?_⟩
  · rw [hleft]
    exact trimR1_on_the_left s.trimMag
  · rw [hright]
    exact trimR1_on_the_right hlt
  · rw [hright, hend, trimR1_flips]
    exact ⟨rfl, rfl⟩
  · obtain ⟨hturnRight, hturn⟩ := commandOf_stepState_of_trim (bs := bs) (s := s) (.inr hr1)
    refine ⟨stepState bs s, _, r1Effect s, exec_step bs s, rfl, stepState_result bs s, hturnRight, hturn,
      fun hl1 => stepState_trim_of_r1 hl1 hr1, fun hl1 hend => ?_, fun hl1 hinside => ?_⟩
    · obtain ⟨hflag, hmag⟩ := hend
      have hdial : (stepState bs s).dial = dial true 62#6 := by
        rw [stepState_dial_of_both hl1 hr1, State.dial, hflag, hmag]
        rfl
      exact dial_inj hdial
    · have hdial : (stepState bs s).dial = s.dial := by
        have hlt : s.dial < 127 := dial_lt_of_ne hinside
        rw [stepState_dial_of_both hl1 hr1]
        omega
      exact dial_inj hdial

/-- Settles O42: both steps are exact numbers under their clamps, and Cross takes from what Triangle left. -/
theorem triangleAndCrossClampTheThrottle : Obligations.TriangleAndCrossClampTheThrottle := by
  unfold Obligations.TriangleAndCrossClampTheThrottle
  simp only [down_eq_flag]
  refine ⟨fun s => ⟨throttleUp s.throttle, rfl, throttleUp_toNat _⟩, fun s => ⟨throttleDown s.throttle, rfl, fun hge => ?_,
    fun hlt => ?_⟩, by decide, by decide, fun s bs hstart htriangle hcross => ⟨stepState bs s, exec_step bs s,
    stepState_throttle_of_both hstart htriangle hcross⟩⟩
  · rw [throttleDown_toNat]
    omega
  · apply BitVec.eq_of_toNat_eq
    rw [throttleDown_toNat, BitVec.toNat_ofNat]
    omega

/-- Operands that agree on the flags of a list have the same effects from the same state. -/
theorem foldl_effects_congr {bs bs' : ButtonState} {l : List Button} (h : ∀ b ∈ l, flag bs s b = flag bs' s b) :
    l.foldl (effectIfPressed bs) s = l.foldl (effectIfPressed bs') s := by
  induction l generalizing s with
  | nil => rfl
  | cons b rest ih =>
    have hb : effectIfPressed bs s b = effectIfPressed bs' s b := by
      have hflag : pressed s.config.btnPos bs b = pressed s.config.btnPos bs' b := h b List.mem_cons_self
      rw [effectIfPressed, effectIfPressed, hflag]
    have hconfig : (effectIfPressed bs' s b).config = s.config := foldl_effects_config bs' [b] s
    rw [List.foldl_cons, List.foldl_cons, hb]
    refine ih fun b' hb' => ?_
    rw [flag, flag, hconfig]
    exact h b' (List.mem_cons_of_mem b hb')

/-- Settles O43: the six instructions have no effect, and STEP acts on the ten effect flags only. -/
theorem noEffectFlagsChangeNothing : Obligations.NoEffectFlagsChangeNothing := by
  refine ⟨fun s => ⟨rfl, rfl, rfl, rfl, rfl, rfl⟩, by decide, by decide, by decide, by decide, by decide, by decide,
    fun s bs bs' hagree => ?_⟩
  have hbegun : runEffects bs (beginStep bs s) = runEffects bs' (beginStep bs s) :=
    foldl_effects_congr (l := effectOrder) hagree
  have hfinish : finishStep (runEffects bs' (beginStep bs s)) = finishStep (runEffects bs' (beginStep bs' s)) := by
    rw [runEffects_eq, runEffects_eq]
    rfl
  exact congrArg Host.Outcome.next ((congrArg finishStep hbegun).trans hfinish)

end Sys2Proof.Machine
end

section
/-! PROOF. What an instruction and a step of the machine may change, and what every step keeps (spec/10_state.md sections 2
to 8, spec/43_control_state_machine.md sections 3 and 4). -/

namespace Sys2Proof.Machine

open Sys2Proof.Spec

variable {i : Instr} {s t : State} {w : OpWord}

/-! ### What an instruction may change -/

/-- Settles O17: a Command with channel 0 has no word. -/
theorem encodeRefusesChannelZero : Obligations.EncodeRefusesChannelZero := by
  intro c s h
  have hnone : wordOf c = none := by
    rw [← Option.not_isSome_iff_eq_none, wordOf_isSome, Command.wf, h]
    decide
  rw [exec, execEncode, hnone]

/-- Everything an instruction that answers next can do. -/
theorem exec_cases (h : exec i s = .next t) :
    (i = .poll ∧ t = afterPoll s) ∨
    (∃ bs, i = .step bs ∧ t = stepState bs s) ∨
    (∃ c w, i = .encode c ∧ t = { s with phase := .idle, result := .word w }) ∨
    (∃ w, i = .transmit w ∧ t = afterTransmit w s) ∨
    ∃ b, i = effectInstr b ∧ t = effectOf b s := by
  rcases instr_forms i with rfl | ⟨bs, rfl⟩ | ⟨c, rfl⟩ | ⟨word, rfl⟩ | ⟨b, rfl⟩
  · exact .inl ⟨rfl, Host.Outcome.next.inj (h.symm.trans (exec_poll s))⟩
  · exact .inr (.inl ⟨bs, rfl, Host.Outcome.next.inj (h.symm.trans (exec_step bs s))⟩)
  · obtain ⟨w, -, ht⟩ := execEncode_next.mp h
    exact .inr (.inr (.inl ⟨c, w, rfl, ht⟩))
  · exact .inr (.inr (.inr (.inl ⟨word, rfl, Host.Outcome.next.inj (h.symm.trans (exec_transmit word s))⟩)))
  · exact .inr (.inr (.inr (.inr ⟨b, rfl, Host.Outcome.next.inj (h.symm.trans (exec_effectInstr b s))⟩)))

/-- The row of a flag is no operation. -/
theorem effectInstr_ne_poll (b : Button) : effectInstr b ≠ .poll := by
  cases b <;> nofun

theorem effectInstr_ne_encode (b : Button) (c : Command) : effectInstr b ≠ .encode c := by
  cases b <;> nofun

theorem effectInstr_ne_transmit (b : Button) (w : TxWord) : effectInstr b ≠ .transmit w := by
  cases b <;> nofun

/-- Settles O44, form by form of the instruction: each end state is the old one with the written fields named. -/
theorem onlyTheListedOperationsWrite : Obligations.OnlyTheListedOperationsWrite := by
  intro i s t h
  rcases exec_cases h with ⟨rfl, rfl⟩ | ⟨bs, rfl, rfl⟩ | ⟨c, w, rfl, rfl⟩ | ⟨w, rfl, rfl⟩ | ⟨b, rfl, rfl⟩
  · simp [afterPoll, isOperation]
  · rw [stepState_frame]
    simp [isOperation]
  · simp [isOperation]
  · simp [afterTransmit, isOperation]
  · rw [effectOf_frame]
    simp [effectInstr_ne_poll, effectInstr_ne_encode, effectInstr_ne_transmit]

/-! ### What a step may change -/

/-- An issued word decodes to one of the four operations (R65). -/
theorem decodeOperation_ne_effect {b : Button} : decodeOperation w ≠ .ok (effectInstr b) := by
  intro h
  obtain ⟨hclear, -, hop⟩ := decodeOperation_ok.mp h
  have hcode := encode_operationOf BtnPos.default hclear
  rw [← hop, encode_effectInstr] at hcode
  exact nomatch hcode

/-- Everything a step that answers next can do, by its end state: it waits, ends one of the four operations, ends a STEP run
effect by effect, or runs an effect. -/
theorem step_ends (h : step s = .next t) :
    (s.phase = .idle ∧ t = s) ∨
    (s.phase = .idle ∧ ∃ rest, t = afterPoll { s with issued := rest }) ∨
    (s.phase = .idle ∧ ∃ bs rest, t = stepState bs { s with issued := rest }) ∨
    (s.phase = .idle ∧ ∃ w rest, t = { s with phase := .idle, issued := rest, result := .word w }) ∨
    (s.phase = .idle ∧ ∃ w rest, t = afterTransmit w { s with issued := rest }) ∨
    (s.phase = .step ∧ t = finishStep s) ∨
    (s.phase = .step ∧ ∃ b e, t = effectOf b { s with effects := e }) := by
  rcases step_cases h with ⟨hp, -, rfl⟩ | ⟨hp, w, rest, i, -, hd, hexec⟩ | ⟨hp, -, rfl⟩ | ⟨hp, b, -, rfl⟩
  · exact .inl ⟨hp, rfl⟩
  · rcases exec_cases hexec with ⟨-, rfl⟩ | ⟨bs, -, rfl⟩ | ⟨c, w, -, rfl⟩ | ⟨w, -, rfl⟩ | ⟨b, rfl, -⟩
    · exact .inr (.inl ⟨hp, rest, rfl⟩)
    · exact .inr (.inr (.inl ⟨hp, bs, rest, rfl⟩))
    · exact .inr (.inr (.inr (.inl ⟨hp, w, rest, rfl⟩)))
    · exact .inr (.inr (.inr (.inr (.inl ⟨hp, w, rest, rfl⟩))))
    · exact absurd hd decodeOperation_ne_effect
  · exact .inr (.inr (.inr (.inr (.inr (.inl ⟨hp, rfl⟩)))))
  · exact .inr (.inr (.inr (.inr (.inr (.inr ⟨hp, b, _, rfl⟩)))))

/-- Settles O45: none of the end states of a step changes the build. -/
theorem noStepChangesTheBuild : Obligations.NoStepChangesTheBuild := by
  intro s t h
  rcases step_ends h with ⟨-, rfl⟩ | ⟨-, rest, rfl⟩ | ⟨-, bs, rest, rfl⟩ | ⟨-, w, rest, rfl⟩ | ⟨-, w, rest, rfl⟩ |
    ⟨-, rfl⟩ | ⟨-, b, e, rfl⟩
  · rfl
  · rfl
  · exact stepState_config bs _
  · rfl
  · rfl
  · rfl
  · exact effectOf_config b _

/-! ### The latched registers -/

/-- What a step may do to the trim and the throttle: nothing, what a whole STEP does, or what one effect does. -/
theorem step_latches (h : step s = .next t) :
    (t.dial = s.dial ∧ t.throttle = s.throttle) ∨
    (∃ bs, t.dial = stepDial bs s ∧ t.throttle.toNat = stepThrottle bs s) ∨
    ∃ b, t.dial = (effectOf b s).dial ∧ t.throttle = (effectOf b s).throttle := by
  rcases step_ends h with ⟨-, rfl⟩ | ⟨-, rest, rfl⟩ | ⟨-, bs, rest, rfl⟩ | ⟨-, w, rest, rfl⟩ | ⟨-, w, rest, rfl⟩ |
    ⟨-, rfl⟩ | ⟨-, b, e, rfl⟩
  · exact .inl ⟨rfl, rfl⟩
  · exact .inl ⟨rfl, rfl⟩
  · refine .inr (.inl ⟨bs, stepState_dial bs _, ?_⟩)
    rw [stepState_throttle, throttleAfter_toNat]
    rfl
  · exact .inl ⟨rfl, rfl⟩
  · exact .inl ⟨rfl, rfl⟩
  · exact .inl ⟨rfl, rfl⟩
  · refine .inr (.inr ⟨b, ?_⟩)
    cases b <;> exact ⟨rfl, rfl⟩

/-- A dial position is at most 127 (R138). -/
theorem State.dial_le (s : State) : s.dial ≤ 127 := by
  have hmag := s.trimMag.isLt
  have hflag := Bool.toNat_le s.trimFlag
  unfold State.dial Machine.dial
  omega

/-- One effect moves the dial at most one position: only L1 and R1 move it (R136, R137). -/
theorem effectOf_dial (b : Button) (s : State) :
    (effectOf b s).dial = s.dial ∨ (effectOf b s).dial = min (s.dial + 1) 127 ∨ (effectOf b s).dial = s.dial - 1 := by
  cases b
  case l1 => exact .inr (.inl (dial_trimL1 _ _))
  case r1 => exact .inr (.inr (dial_trimR1 _ _))
  all_goals exact .inl rfl

/-- Settles O47: a STEP moves the dial up by L1 and then down by R1, each by one at most; an effect moves it once. -/
theorem trimDialMovesByOneAtMost : Obligations.TrimDialMovesByOneAtMost := by
  intro s t h
  have hmax := s.dial_le
  rcases step_latches h with ⟨hdial, -⟩ | ⟨bs, hdial, -⟩ | ⟨b, hdial, -⟩
  · omega
  · rw [hdial, stepDial_eq]
    dsimp only
    split_ifs <;> omega
  · rw [hdial]
    rcases effectOf_dial b s with h | h | h <;> omega

/-- Settles O46: on the dial the two sides meet only between (0, 63) and (1, 0), and a step moves by one at most. -/
theorem trimFlagFlipsOnlyAtTheExtremes : Obligations.TrimFlagFlipsOnlyAtTheExtremes := by
  intro s t h hflip
  obtain ⟨hup, hdown⟩ := trimDialMovesByOneAtMost s t h
  have hs := s.trimMag.isLt
  have ht := t.trimMag.isLt
  unfold State.dial dial at hup hdown
  refine ⟨fun hfalse => ?_, fun htrue => ?_⟩
  · have htrue : t.trimFlag = true := by simpa [hfalse] using hflip
    simp only [hfalse, htrue, Bool.toNat_false, Bool.toNat_true] at hup hdown
    exact ⟨BitVec.eq_of_toNat_eq (by simp; omega), BitVec.eq_of_toNat_eq (by simp; omega)⟩
  · have hfalse : t.trimFlag = false := by simpa [htrue] using hflip
    simp only [hfalse, htrue, Bool.toNat_false, Bool.toNat_true] at hup hdown
    exact ⟨BitVec.eq_of_toNat_eq (by simp; omega), BitVec.eq_of_toNat_eq (by simp; omega)⟩

/-- One effect clears the throttle, keeps it, or moves it by 3 under its clamps (R125, R133, R134). -/
theorem effectOf_throttle (b : Button) (s : State) :
    (effectOf b s).throttle.toNat = s.throttle.toNat ∨ (effectOf b s).throttle.toNat = 0 ∨
    (effectOf b s).throttle.toNat = min (s.throttle.toNat + 3) 255 ∨
    (effectOf b s).throttle.toNat = s.throttle.toNat - 3 := by
  cases b
  case start => exact .inr (.inl rfl)
  case triangle => exact .inr (.inr (.inl (throttleUp_toNat _)))
  case cross => exact .inr (.inr (.inr (throttleDown_toNat _)))
  all_goals exact .inl rfl

/-- Settles O49: 0 and 255 are multiples of 3, and so are the moves by 3 between them. -/
theorem throttleStaysAMultipleOfThree : Obligations.ThrottleStaysAMultipleOfThree := by
  intro s t hs h
  rcases step_latches h with ⟨-, hthrottle⟩ | ⟨bs, -, hthrottle⟩ | ⟨b, -, hthrottle⟩
  · rwa [hthrottle]
  · rw [hthrottle, stepThrottle_eq]
    dsimp only
    split_ifs <;> omega
  · rw [hthrottle]
    rcases effectOf_throttle b s with h | h | h | h <;> omega

/-! ### The invariant -/

/-- Settles O50: the reset levels are the levels at rest, and the counters are 0. -/
theorem resetMeetsTheMachineInvariant : Obligations.ResetMeetsTheMachineInvariant :=
  fun _ hwf => ⟨hwf, .inl rfl, ⟨rfl, rfl, rfl, rfl⟩, Nat.zero_le 5, Nat.zero_le 7, Nat.zero_le 62⟩

/-- Settles O51: POLL and TRANSMIT leave the pins at rest and their counters at the end of the range; the other end states
keep pins and counters. -/
theorem everyStepKeepsTheMachineInvariant : Obligations.EveryStepKeepsTheMachineInvariant := by
  intro s t ⟨hwf, hphase, hpins, hcounters⟩ h
  obtain ⟨hclk, hcmd, hatt, hir⟩ := hpins
  obtain ⟨hbyte, hbit, hsym⟩ := hcounters
  rcases step_ends h with ⟨-, rfl⟩ | ⟨-, rest, rfl⟩ | ⟨-, bs, rest, rfl⟩ | ⟨-, w, rest, rfl⟩ | ⟨-, w, rest, rfl⟩ |
    ⟨-, rfl⟩ | ⟨hstep, b, e, rfl⟩
  · exact ⟨hwf, hphase, ⟨hclk, hcmd, hatt, hir⟩, hbyte, hbit, hsym⟩
  · exact ⟨hwf, .inl rfl, ⟨rfl, rfl, rfl, hir⟩, Nat.le_refl 5, Nat.le_refl 7, hsym⟩
  · rw [stepState_frame]
    exact ⟨hwf, .inl rfl, ⟨hclk, hcmd, hatt, hir⟩, hbyte, hbit, hsym⟩
  · exact ⟨hwf, .inl rfl, ⟨hclk, hcmd, hatt, hir⟩, hbyte, hbit, hsym⟩
  · exact ⟨hwf, .inl rfl, ⟨hclk, hcmd, hatt, rfl⟩, hbyte, hbit, Nat.le_refl 62⟩
  · exact ⟨hwf, .inl rfl, ⟨hclk, hcmd, hatt, hir⟩, hbyte, hbit, hsym⟩
  · rw [effectOf_frame]
    exact ⟨hwf, .inr hstep, ⟨hclk, hcmd, hatt, hir⟩, hbyte, hbit, hsym⟩

end Sys2Proof.Machine
end

section
/-! PROOF. The sequencer: what a step does in each PHASE, which issued words it refuses, and that a caller acts only on an
idle block (spec/30_encoding.md section 1, spec/43_control_state_machine.md section 1, spec/70_reset_and_hazards.md). -/

namespace Sys2Proof.Machine

open Sys2Proof.Spec

variable {i : Instr} {s : State} {w : OpWord} {rest : List OpWord}

/-! ### Reset, and one rule per kind of step -/

/-- Settles O2: each register of the reset state is the parameter or the level named. -/
theorem resetLeavesParametersIdleAndPinsReleased : Obligations.ResetLeavesParametersIdleAndPinsReleased :=
  fun c => ⟨State.resetWith c, rfl, rfl, rfl, rfl, rfl, rfl, rfl, List.length_replicate,
    fun _ hb => List.eq_of_mem_replicate hb, rfl⟩

/-- Settles O3: with no word issued the idle block has nothing to run. -/
theorem idleBlockWaitsForTheCaller : Obligations.IdleBlockWaitsForTheCaller := by
  intro s hidle hnone
  simp only [step, hidle, nextIssued, hnone]

/-- An idle block runs the operation of the caller's next word (R59). -/
theorem step_of_accepted (hidle : s.phase = .idle) (hissued : s.issued = w :: rest) (h : decodeOperation w = .ok i) :
    step s = exec i { s with issued := rest } := by
  simp only [step, hidle, nextIssued, hissued, h]

/-- Settles O4: the word is taken off the queue and decoded before the operation runs. -/
theorem stepRunsTheIssuedOperation : Obligations.StepRunsTheIssuedOperation :=
  fun _ _ _ _ => step_of_accepted

/-- An idle block refuses a word the decoder rejects, by the decoder's reason (R147). -/
theorem step_of_rejected {r : Reject} (hidle : s.phase = .idle) (hissued : s.issued = w :: rest)
    (h : decodeOperation w = .error r) : step s = .refused (refusalOf r) := by
  simp only [step, hidle, nextIssued, hissued, h]

/-- Inside a STEP the next flag's effect runs and its bit is cleared (R124). -/
theorem step_of_flag {b : Button} (hstep : s.phase = .step) (h : nextFlag s.config.btnPos s.effects = some b) :
    step s = .next (effectOf b { s with effects := s.effects &&& ~~~(s.config.btnPos.mask b) }) := by
  simp only [step, hstep, nextSelected, h, exec_effectInstr]

/-- Inside a STEP with no flag left the Command is returned (R122). -/
theorem step_of_no_flag (hstep : s.phase = .step) (h : nextFlag s.config.btnPos s.effects = none) :
    step s = .next (finishStep s) := by
  simp only [step, hstep, nextSelected, h]

/-- The first pressed flag of the selection order is the next one. -/
theorem nextFlag_of_first {p : BtnPos} {bs : ButtonState} {b : Button} {before after : List Button}
    (horder : selectionOrder = before ++ b :: after) (hbefore : ∀ b' ∈ before, pressed p bs b' = false)
    (hb : pressed p bs b = true) : nextFlag p bs = some b :=
  List.find?_eq_some_iff_append.mpr ⟨hb, before, after, horder, fun b' hb' => by simp [hbefore b' hb']⟩

/-- Settles O5: the decoder of a ButtonState takes the first pressed flag, and none exactly if none is pressed. -/
theorem stepRunsTheSelectedEffect : Obligations.StepRunsTheSelectedEffect := by
  refine ⟨fun s b before after hstep horder hbefore hb => ?_, fun s hstep hnone => ?_⟩
  · rw [exec_effectInstr]
    exact step_of_flag hstep (nextFlag_of_first horder hbefore hb)
  · exact step_of_no_flag hstep (nextFlag_none.mpr hnone)

/-- Settles O7: three phases are refused outright, and inside a STEP neither an effect nor the return takes a word. -/
theorem callerHasNoMoveWhileBusy : Obligations.CallerHasNoMoveWhileBusy := by
  refine fun s hbusy => ⟨fun hnot => ?_, fun t h => ?_⟩
  · cases hphase : s.phase with
    | idle => exact absurd hphase hbusy
    | step => exact absurd hphase hnot
    | poll | encode | transmit => simp only [step, hphase]
  · rcases step_cases h with ⟨hidle, -⟩ | ⟨hidle, -⟩ | ⟨-, -, rfl⟩ | ⟨-, b, -, rfl⟩
    · exact absurd hidle hbusy
    · exact absurd hidle hbusy
    · rfl
    · rw [effectOf_frame]

/-! ### Which words are refused -/

/-- The mask of `n` bits from bit `lo` on. -/
def fieldMask (lo n : Nat) : OpWord :=
  (BitVec.allOnes n).setWidth 32 <<< lo

/-- The mask of a field is 1 on the field's bits. -/
theorem getLsbD_fieldMask {lo n : Nat} (h : lo + n ≤ 32) (j : Nat) :
    (fieldMask lo n).getLsbD j = decide (lo ≤ j ∧ j < lo + n) := by
  rw [Bool.eq_iff_iff]
  simp only [fieldMask, BitVec.getLsbD_shiftLeft, BitVec.getLsbD_setWidth, BitVec.getLsbD_allOnes, Bool.and_eq_true,
    Bool.not_eq_true', decide_eq_true_eq, decide_eq_false_iff_not]
  omega

/-- A word is 0 under a field's mask exactly if the field is 0. -/
theorem and_fieldMask (w : OpWord) {lo n : Nat} (h : lo + n ≤ 32) :
    w &&& fieldMask lo n = 0#32 ↔ w.extractLsb' lo n = 0#n := by
  constructor
  · intro hzero
    apply BitVec.eq_of_getLsbD_eq
    intro j hj
    have hbit := congrArg (BitVec.getLsbD · (lo + j)) hzero
    simpa [getLsbD_fieldMask h, hj] using hbit
  · intro hzero
    apply BitVec.eq_of_getLsbD_eq
    intro j hj
    rw [BitVec.getLsbD_and, getLsbD_fieldMask h, BitVec.getLsbD_zero]
    by_cases hin : lo ≤ j ∧ j < lo + n
    · obtain ⟨k, rfl⟩ := Nat.exists_eq_add_of_le hin.1
      have hk : k < n := by omega
      have hbit := congrArg (BitVec.getLsbD · k) hzero
      simp only [BitVec.getLsbD_extractLsb', BitVec.getLsbD_zero, hk, decide_true, Bool.true_and] at hbit
      rw [hbit, Bool.false_and]
    · rw [decide_eq_false hin, Bool.and_false]

/-- A one-bit field is 0 exactly if its bit is. -/
theorem extractLsb'_one_eq_zero (w : OpWord) (j : Nat) : w.extractLsb' j 1 = 0#1 ↔ w.getLsbD j = false := by
  have hbit : (w.extractLsb' j 1).getLsbD 0 = w.getLsbD j := by simp
  constructor
  · intro h
    rw [← hbit, h, BitVec.getLsbD_zero]
  · intro h
    apply BitVec.eq_of_getLsbD_eq
    intro k hk
    obtain rfl : k = 0 := by omega
    rw [hbit, h, BitVec.getLsbD_zero]

/-- The reserved bits of an ENCODE word are bits 29..26, 15 and 7 (R69). -/
theorem reserved_encode (w : OpWord) : w &&& reservedMask 2#2 = 0#32 ↔
    w.extractLsb' 26 4 = 0#4 ∧ w.getLsbD 15 = false ∧ w.getLsbD 7 = false := by
  have hmask : reservedMask 2#2 = fieldMask 26 4 ||| (fieldMask 15 1 ||| fieldMask 7 1) := by decide
  rw [hmask, BitVec.and_or_distrib_left, BitVec.and_or_distrib_left, BitVec.or_eq_zero_iff, BitVec.or_eq_zero_iff,
    and_fieldMask w (by decide), and_fieldMask w (by decide), and_fieldMask w (by decide), extractLsb'_one_eq_zero,
    extractLsb'_one_eq_zero]

/-- A word has a reserved bit set exactly if it does in the terms of its format's fields (R67 to R70). -/
theorem reserved_set_iff (w : OpWord) : w &&& reservedMask (opsel w) ≠ 0#32 ↔
    (opsel w = 0b00#2 ∧ w.extractLsb' 0 30 ≠ 0#30) ∨
    (opsel w = 0b01#2 ∧ w.extractLsb' 16 14 ≠ 0#14) ∨
    (opsel w = 0b10#2 ∧ (w.extractLsb' 26 4 ≠ 0#4 ∨ w.getLsbD 15 = true ∨ w.getLsbD 7 = true)) ∨
    (opsel w = 0b11#2 ∧ w.extractLsb' 28 2 ≠ 0#2) := by
  rcases opsel_cases w with hsel | hsel | hsel | hsel
  · have hmask : reservedMask 0#2 = fieldMask 0 30 := by decide
    simp [hsel, hmask, and_fieldMask w (show 0 + 30 ≤ 32 by decide)]
  · have hmask : reservedMask 1#2 = fieldMask 16 14 := by decide
    simp [hsel, hmask, and_fieldMask w (show 16 + 14 ≤ 32 by decide)]
  · simp only [hsel, ne_eq, reserved_encode]
    simp [-not_and, Classical.not_and_iff_not_or_not]
  · have hmask : reservedMask 3#2 = fieldMask 28 2 := by decide
    simp [hsel, hmask, and_fieldMask w (show 28 + 2 ≤ 32 by decide)]

/-- Bits 31..24 are 0x80 exactly in an ENCODE word with bits 29..26 and the channel field 0. -/
theorem high_byte_iff (w : OpWord) :
    w.extractLsb' 24 8 = 0x80#8 ↔ opsel w = 2#2 ∧ w.extractLsb' 26 4 = 0#4 ∧ w.extractLsb' 24 2 = 0#2 := by
  have hparts : w.extractLsb' 24 8 = opsel w ++ (w.extractLsb' 26 4 ++ w.extractLsb' 24 2) := by
    rw [BitVec.extractLsb'_append_extractLsb'_eq_extractLsb' (by rfl), opsel,
      BitVec.extractLsb'_append_extractLsb'_eq_extractLsb' (by rfl)]
  have hall : ∀ (a : BitVec 2) (b : BitVec 4) (c : BitVec 2),
      a ++ (b ++ c) = 0x80#8 ↔ a = 2#2 ∧ b = 0#4 ∧ c = 0#2 := by decide
  rw [hparts, hall]

/-- The decoder gives the reason reservedBitSet exactly for a reserved bit (R72). -/
theorem decodeOperation_reservedBitSet :
    decodeOperation w = .error .reservedBitSet ↔ w &&& reservedMask (opsel w) ≠ 0#32 := by
  unfold decodeOperation
  split
  next hclear => split <;> exact iff_of_false nofun fun h => h hclear
  next hset => exact iff_of_true rfl hset

/-- The decoder gives the reason channelZero exactly for an ENCODE word with no reserved bit set and channel field 0
(R72). -/
theorem decodeOperation_channelZero : decodeOperation w = .error .channelZero ↔
    w.extractLsb' 24 8 = 0x80#8 ∧ w.getLsbD 15 = false ∧ w.getLsbD 7 = false := by
  have hfields : decodeOperation w = .error .channelZero ↔
      w &&& reservedMask (opsel w) = 0#32 ∧ opsel w = 2#2 ∧ w.extractLsb' 24 2 = 0#2 := by
    unfold decodeOperation
    split
    next hclear =>
      split
      next hzero => exact iff_of_true rfl ⟨hclear, hzero⟩
      next hchannel => exact iff_of_false nofun fun h => hchannel h.2
    next hset => exact iff_of_false nofun fun h => hset h.1
  rw [hfields, high_byte_iff]
  constructor
  · rintro ⟨hres, hsel, hchannel⟩
    obtain ⟨hhigh, h15, h7⟩ := (reserved_encode w).mp (hsel ▸ hres)
    exact ⟨⟨hsel, hhigh, hchannel⟩, h15, h7⟩
  · rintro ⟨⟨hsel, hhigh, hchannel⟩, h15, h7⟩
    exact ⟨hsel ▸ (reserved_encode w).mpr ⟨hhigh, h15, h7⟩, hsel, hchannel⟩

/-- A well-formed instruction completes from every state. -/
theorem exec_completes (hwf : i.wf = true) (s : State) : ∃ t, exec i s = .next t := by
  rcases instr_forms i with rfl | ⟨bs, rfl⟩ | ⟨c, rfl⟩ | ⟨word, rfl⟩ | ⟨b, rfl⟩
  · exact ⟨_, exec_poll s⟩
  · exact ⟨_, exec_step bs s⟩
  · obtain ⟨w, hencode⟩ := encodeIsTotalAndPure c hwf
    exact ⟨_, hencode s⟩
  · exact ⟨_, exec_transmit word s⟩
  · exact ⟨_, exec_effectInstr b s⟩

/-- Settles O6: a step refuses by the decoder's reason; an accepted word is a well-formed operation, which completes. -/
theorem illegalWordsAreRefusedAndOthersRun : Obligations.IllegalWordsAreRefusedAndOthersRun := by
  intro s w rest hidle hissued
  rw [← decodeOperation_channelZero, ← opsel, ← reserved_set_iff, ← decodeOperation_reservedBitSet]
  cases h : decodeOperation w with
  | ok i =>
    obtain ⟨t, ht⟩ := exec_completes (wf_of_decodeOperation h) { s with issued := rest }
    rw [step_of_accepted hidle hissued h, ht]
    simp
  | error r =>
    rw [step_of_rejected hidle hissued h]
    cases r <;> simp [refusalOf]

end Sys2Proof.Machine
end

section
/-! PROOF. No step shows a stale transient field (spec/10_state.md R43), and a STEP run one effect at a time is the
atomic STEP (spec/43_control_state_machine.md section 1, spec/92_eei_decisions.md D19). -/

namespace Sys2Proof.Machine

open Sys2Proof.Spec

/-! ### Stale transient fields -/

/-- A state with other values in the four transient fields. -/
def withTransients (r : Bool) (t : BitVec 6) (f : Bool) (l : BitVec 5) (s : State) : State :=
  { s with cmdTurnRight := r, cmdTurn := t, cmdForward := f, cmdTilt := l }

section

variable (s : State) (r : Bool) (t : BitVec 6) (f : Bool) (l : BitVec 5)

/-- A ButtonState placed in a block outside a STEP begins one, which forgets the transient fields. -/
theorem withFetchWord_withTransients (h : s.phase ≠ .step) {nbits : Nat} (hbits : nbits ≤ 16) (w : Nat) :
    (withTransients r t f l s).withFetchWord nbits w = s.withFetchWord nbits w := by
  have hcode : tableCode nbits w = some (.effect (BitVec.ofNat 16 w)) := if_pos hbits
  simp only [State.withFetchWord, hcode, placeCode_effect]
  rw [placeOperand_begins _ _ h, placeOperand_begins _ (withTransients r t f l s) h]
  exact beginStep_ignores_stale _ s r t f l

/-- ENCODE is refused by its operand alone. -/
theorem exec_encode_refused_congr {c : Command} {x : Refusal} {u : State} (h : exec (.encode c) s = .refused x) :
    exec (.encode c) u = .refused x := by
  cases hword : wordOf c with
  | none => simpa [exec, execEncode, hword] using h
  | some w => simp [exec, execEncode, hword] at h

/-- An operation is refused or completes as it would from other transient fields, and shows these nowhere else. -/
theorem exec_withTransients {i : Instr} (hi : ∀ b, i ≠ effectInstr b) :
    (∀ x, exec i s = .refused x → exec i (withTransients r t f l s) = .refused x) ∧
    ∀ u, exec i s = .next u →
      ∃ r' t' f' l', exec i (withTransients r t f l s) = .next (withTransients r' t' f' l' u) := by
  refine ⟨fun x h => ?_, fun u h => ?_⟩
  · rcases instr_forms i with rfl | ⟨bs, rfl⟩ | ⟨c, rfl⟩ | ⟨word, rfl⟩ | ⟨b, rfl⟩
    · exact nomatch (exec_poll s).symm.trans h
    · exact nomatch (exec_step bs s).symm.trans h
    · exact exec_encode_refused_congr s h
    · exact nomatch (exec_transmit word s).symm.trans h
    · exact absurd rfl (hi b)
  · rcases exec_cases h with ⟨rfl, rfl⟩ | ⟨bs, rfl, rfl⟩ | ⟨c, w, rfl, rfl⟩ | ⟨w, rfl, rfl⟩ | ⟨b, rfl, -⟩
    · exact ⟨r, t, f, l, exec_poll _⟩
    · exact ⟨_, _, _, _, exec_step_ignores_stale r t f l⟩
    · obtain ⟨w', hword, hend⟩ := execEncode_next.mp h
      refine ⟨r, t, f, l, execEncode_next.mpr ⟨w', hword, ?_⟩⟩
      rw [hend]
      rfl
    · exact ⟨r, t, f, l, exec_transmit w _⟩
    · exact absurd rfl (hi b)

/-- A step of an idle block is refused or completes as it would from other transient fields, shown nowhere else. -/
theorem step_withTransients (hidle : s.phase = .idle) :
    (∀ x, step s = .refused x → step (withTransients r t f l s) = .refused x) ∧
    ∀ u, step s = .next u →
      ∃ r' t' f' l', step (withTransients r t f l s) = .next (withTransients r' t' f' l' u) := by
  cases hissued : s.issued with
  | nil =>
    rw [idleBlockWaitsForTheCaller s hidle hissued, idleBlockWaitsForTheCaller (withTransients r t f l s) hidle hissued]
    exact ⟨nofun, fun u hu => ⟨r, t, f, l, Host.Outcome.next.inj hu ▸ rfl⟩⟩
  | cons w rest =>
    cases hdecode : decodeOperation w with
    | error reason =>
      have hrefused := step_of_rejected (s := withTransients r t f l s) hidle hissued hdecode
      rw [step_of_rejected hidle hissued hdecode, hrefused]
      exact ⟨fun _ => id, fun _ hu => nomatch hu⟩
    | ok i =>
      have hrun : step (withTransients r t f l s) = exec i (withTransients r t f l { s with issued := rest }) :=
        step_of_accepted hidle hissued hdecode
      rw [step_of_accepted hidle hissued hdecode, hrun]
      exact exec_withTransients _ r t f l fun b hb => decodeOperation_ne_effect (hb ▸ hdecode)

end

/-- Settles O29: a STEP begins by writing the four fields, and no other operation reads them. -/
theorem stepIgnoresStaleCommandFields : Obligations.StepIgnoresStaleCommandFields :=
  ⟨fun _ _ r t f l => exec_step_ignores_stale r t f l,
    fun s _ w r t f l h hbits => withFetchWord_withTransients s r t f l h hbits w,
    fun s r t f l hidle => step_withTransients s r t f l hidle⟩

/-! ### The finer view of a STEP -/

/-- An effect does not look at the flags still to act on. -/
theorem effectOf_with_effects (b : Button) (s : State) (e : ButtonState) :
    effectOf b { s with effects := e } = { effectOf b s with effects := e } := by
  cases b <;> rfl

/-- The effects of a list do not look at the flags still to act on, and the end of a STEP clears these. -/
theorem finishStep_foldl_with_effects (bs : ButtonState) (l : List Button) (s : State) (e : ButtonState) :
    finishStep (l.foldl (effectIfPressed bs) { s with effects := e }) = finishStep (l.foldl (effectIfPressed bs) s) := by
  induction l generalizing s with
  | nil => rfl
  | cons b rest ih =>
    have hb : effectIfPressed bs { s with effects := e } b = { effectIfPressed bs s b with effects := e } := by
      unfold effectIfPressed
      split
      · exact effectOf_with_effects b s e
      · rfl
    rw [List.foldl_cons, List.foldl_cons, hb, ih]

/-- The order has each flag once. -/
theorem nodup_selectionOrder : selectionOrder.Nodup := by decide

/-- Where the flags of `acted` are cleared and those of `left` stand as in the operand `bs`, the machine runs the pressed
flags of `left` in their order, one step each, and returns. -/
theorem runSteps_left {bs : ButtonState} {left acted : List Button} {s : State} (hwf : s.config.btnPos.wf = true)
    (hstep : s.phase = .step) (horder : selectionOrder = acted ++ left)
    (hacted : ∀ b ∈ acted, flag s.effects s b = false) (hleft : ∀ b ∈ left, flag s.effects s b = flag bs s b) :
    runSteps (left.countP (flag bs s) + 1) s = .next (finishStep (left.foldl (effectIfPressed bs) s)) := by
  induction left generalizing acted s with
  | nil =>
    have hnone : nextFlag s.config.btnPos s.effects = none :=
      nextFlag_none.mpr fun b => hacted b (by simpa [horder] using mem_selectionOrder b)
    rw [List.countP_nil, runSteps, step_of_no_flag hstep hnone]
    rfl
  | cons b rest ih =>
    have hunique : b ∉ rest := by
      have hnodup := nodup_selectionOrder
      rw [horder] at hnodup
      exact (List.nodup_cons.mp hnodup.of_append_right).1
    have horder' : selectionOrder = (acted ++ [b]) ++ rest := by rw [horder, List.append_assoc]; rfl
    cases hb : flag bs s b with
    | false =>
      have hskip : effectIfPressed bs s b = s := if_neg (by simpa [flag] using hb)
      rw [List.countP_cons_of_neg (by simp [hb]), List.foldl_cons, hskip]
      refine ih hwf hstep horder' (fun b' hb' => ?_) fun b' hb' => hleft b' (List.mem_cons_of_mem b hb')
      rcases List.mem_append.mp hb' with h | h
      · exact hacted b' h
      · obtain rfl := List.mem_singleton.mp h
        rw [hleft _ List.mem_cons_self, hb]
    | true =>
      have hnext : nextFlag s.config.btnPos s.effects = some b :=
        nextFlag_of_first horder hacted ((hleft b List.mem_cons_self).trans hb)
      have hrun : effectIfPressed bs s b = effectOf b s := if_pos hb
      have hconfig := effectOf_config b s
      have hphase : (effectOf b s).phase = s.phase := by rw [effectOf_frame]
      rw [List.countP_cons_of_pos hb, runSteps, step_of_flag hstep hnext, andThen_next, List.foldl_cons, hrun,
        effectOf_with_effects]
      obtain ⟨e, he⟩ : ∃ e, e = s.effects &&& ~~~(s.config.btnPos.mask b) := ⟨_, rfl⟩
      rw [← he]
      have hflag (bs' : ButtonState) : flag bs' { effectOf b s with effects := e } = flag bs' s :=
        funext fun b' => congrArg (fun c : Config => pressed c.btnPos bs' b') hconfig
      have hcleared (b' : Button) : flag e s b' = (flag s.effects s b' && decide (b' ≠ b)) :=
        he ▸ pressed_clear hwf s.effects b b'
      have hend := ih (acted := acted ++ [b]) (s := { effectOf b s with effects := e }) (hconfig ▸ hwf)
        (hphase.trans hstep) horder' ?_ ?_
      · rw [← hflag bs, hend, finishStep_foldl_with_effects]
      · intro b' hb'
        rw [hflag, hcleared]
        rcases List.mem_append.mp hb' with h | h
        · rw [hacted b' h, Bool.false_and]
        · rw [List.mem_singleton.mp h, decide_eq_false (by simp), Bool.and_false]
      · intro b' hb'
        have hne : b' ≠ b := fun heq => hunique (heq ▸ hb')
        rw [hflag, hflag, hcleared, hleft b' (List.mem_cons_of_mem b hb'), decide_eq_true hne, Bool.and_true]

/-- The flags without an effect, last in the selection order, do nothing. -/
theorem foldl_selectionOrder (bs : ButtonState) (s : State) :
    selectionOrder.foldl (effectIfPressed bs) s = runEffects bs s := by
  have hnothing : ∀ b ∈ noEffectButtons, ∀ u, effectIfPressed bs u b = u := by
    intro b hb u
    have heffect : effectOf b u = u := by
      simp only [noEffectButtons, List.mem_cons, List.not_mem_nil, or_false] at hb
      rcases hb with rfl | rfl | rfl | rfl | rfl | rfl <;> rfl
    rw [effectIfPressed, heffect, ite_self]
  have hskip (u : State) : noEffectButtons.foldl (effectIfPressed bs) u = u :=
    List.foldlRecOn noEffectButtons (effectIfPressed bs) (motive := (· = u)) rfl fun v hv b hb => (hnothing b hb v).trans hv
  rw [selectionOrder, List.foldl_append, hskip, runEffects]

/-- Settles O33: the operand's pressed flags are acted on in the selection order, which begins with the order of R124. -/
theorem stepEqualsItsEffectsRunOneByOne : Obligations.StepEqualsItsEffectsRunOneByOne := by
  intro s bs hwf
  have hrun := runSteps_left (bs := bs) (left := selectionOrder) (acted := []) (s := beginStep bs s) hwf rfl rfl nofun
    fun _ _ => rfl
  rw [foldl_selectionOrder] at hrun
  exact hrun

end Sys2Proof.Machine
end

section
/-! PROOF. From reset, STEPs reach every trim position with either light value (spec/43_control_state_machine.md R142). -/

namespace Sys2Proof.Machine

open Sys2Proof.Spec

/-- A run of two lists of operations is the run of the second after the first. -/
theorem runInstrs_append {l m : List Instr} {s t : State} (h : runInstrs l s = .next t) :
    runInstrs (l ++ m) s = runInstrs m t := by
  induction l generalizing s with
  | nil => rw [← Host.Outcome.next.inj h, List.nil_append]
  | cons i rest ih =>
    rw [runInstrs] at h
    rw [List.cons_append, runInstrs]
    cases hi : exec i s with
    | next u =>
      rw [hi] at h
      exact ih h
    | fault r => exact nomatch r
    | refused r =>
      rw [hi] at h
      exact nomatch h

/-- Some sequence of STEPs leads from `s` to `t`. -/
def StepsReach (s t : State) : Prop :=
  ∃ presses : List ButtonState, runInstrs (presses.map Instr.step) s = .next t

/-- Sequences of STEPs follow one another. -/
theorem StepsReach.trans {s t u : State} (hst : StepsReach s t) (htu : StepsReach t u) : StepsReach s u := by
  obtain ⟨l, hl⟩ := hst
  obtain ⟨m, hm⟩ := htu
  exact ⟨l ++ m, by rw [List.map_append, runInstrs_append hl, hm]⟩

/-- k STEPs with one operand are a sequence of STEPs. -/
theorem stepsReach_iterate (bs : ButtonState) (s : State) (k : Nat) : StepsReach s ((stepState bs)^[k] s) :=
  ⟨List.replicate k bs, by rw [List.map_replicate, runInstrs_replicate_step]⟩

/-- On a legal build the mask of a flag presses that flag alone. -/
theorem flag_mask {s : State} (hwf : s.config.btnPos.wf = true) (b b' : Button) :
    flag (s.config.btnPos.mask b) s b' = decide (b' = b) := by
  rw [flag, pressed_mask, decide_eq_decide]
  exact ⟨BtnPos.bit_inj hwf, congrArg _⟩

section

variable {bs : ButtonState} {s : State}

/-- The build stays the same over a run of STEPs. -/
theorem iterate_stepState_config (k : Nat) : ((stepState bs)^[k] s).config = s.config := by
  induction k with
  | zero => rfl
  | succ k ih => rw [Function.iterate_succ_apply', stepState_config, ih]

/-- STEPs without Start and Select keep LIGHT. -/
theorem iterate_stepState_light_kept (hstart : flag bs s .start = false) (hselect : flag bs s .select = false) (k : Nat) :
    ((stepState bs)^[k] s).light = s.light := by
  induction k with
  | zero => rfl
  | succ k ih => rw [Function.iterate_succ_apply', stepState_light_kept (by simpa) (by simpa), ih]

/-- A STEP with R1 and not L1 moves the dial one position down to 0 (R138). -/
theorem stepState_dial_of_r1 (hl1 : flag bs s .l1 = false) (hr1 : flag bs s .r1 = true) :
    (stepState bs s).dial = s.dial - 1 := by
  obtain ⟨hflag, hmag⟩ := stepState_trim_of_r1 hl1 hr1
  rw [State.dial, hflag, hmag, dial_trimR1, State.dial]

/-- R1 held for k STEPs moves the dial k positions, down to 0. -/
theorem iterate_stepState_dial_of_r1 (hl1 : flag bs s .l1 = false) (hr1 : flag bs s .r1 = true) (k : Nat) :
    ((stepState bs)^[k] s).dial = s.dial - k := by
  induction k with
  | zero => rfl
  | succ k ih => rw [Function.iterate_succ_apply', stepState_dial_of_r1 (by simpa) (by simpa), ih, Nat.sub_sub]

end

/-- In a legal build every trim is reached with LIGHT unchanged: R1 down to the left end of the dial, then L1 up. -/
theorem stepsReach_trim {s : State} (hwf : s.config.btnPos.wf = true) (f : Bool) (m : BitVec 6) : ∃ t,
    StepsReach s t ∧ t.config = s.config ∧ t.light = s.light ∧ t.trimFlag = f ∧ t.trimMag = m := by
  have left_end : ∃ t, StepsReach s t ∧ t.config = s.config ∧ t.light = s.light ∧ t.dial = 0 := by
    refine ⟨_, stepsReach_iterate (s.config.btnPos.mask .r1) s 127, iterate_stepState_config 127,
      iterate_stepState_light_kept (by simp [flag_mask hwf]) (by simp [flag_mask hwf]) 127, ?_⟩
    rw [iterate_stepState_dial_of_r1 (by simp [flag_mask hwf]) (by simp [flag_mask hwf])]
    exact Nat.sub_eq_zero_of_le s.dial_le
  obtain ⟨t, hreach, hconfig, hlight, hdial⟩ := left_end
  have hwf' : t.config.btnPos.wf = true := hconfig ▸ hwf
  have hend : ((stepState (t.config.btnPos.mask .l1))^[dial f m] t).dial = dial f m := by
    have hle : dial f m ≤ 127 := State.dial_le { s with trimFlag := f, trimMag := m }
    rw [iterate_stepState_dial (by simp [flag_mask hwf']) (by simp [flag_mask hwf']), hdial, Nat.zero_add,
      Nat.min_eq_left hle]
  exact ⟨_, hreach.trans (stepsReach_iterate (t.config.btnPos.mask .l1) t (dial f m)),
    (iterate_stepState_config _).trans hconfig,
    (iterate_stepState_light_kept (by simp [flag_mask hwf']) (by simp [flag_mask hwf']) _).trans hlight, dial_inj hend⟩

/-- In a legal build either light value is reached with the trim unchanged: Select, or nothing. -/
theorem stepsReach_light {s : State} (hwf : s.config.btnPos.wf = true) (l : Bool) : ∃ t,
    StepsReach s t ∧ t.light = l ∧ t.trimFlag = s.trimFlag ∧ t.trimMag = s.trimMag := by
  by_cases hl : s.light = l
  · exact ⟨s, ⟨[], rfl⟩, hl, rfl, rfl⟩
  · have hselect : (stepState (s.config.btnPos.mask .select) s).light = !s.light :=
      stepState_light_of_select (by simp [flag_mask hwf]) (by simp [flag_mask hwf])
    exact ⟨_, stepsReach_iterate (s.config.btnPos.mask .select) s 1, hselect.trans (Bool.eq_not.mpr (Ne.symm hl)).symm,
      stepState_trim_unmoved (by simp [flag_mask hwf]) (by simp [flag_mask hwf])⟩

/-- Settles O48: first the trim, then the light. -/
theorem everyTrimAndLightIsReachable : Obligations.EveryTrimAndLightIsReachable := by
  intro c f m l hwf
  have hbtn : c.btnPos.wf = true := (channel_and_btnPos_of_wf hwf).2
  obtain ⟨t, htrim, hconfig, -, hflag, hmag⟩ := stepsReach_trim (s := State.resetWith c) hbtn f m
  have hbtn' : t.config.btnPos.wf = true := hconfig ▸ hbtn
  obtain ⟨u, hlight, hl, hflag', hmag'⟩ := stepsReach_light hbtn' l
  obtain ⟨presses, hrun⟩ := htrim.trans hlight
  exact ⟨presses, u, hrun, hflag'.trans hflag, hmag'.trans hmag, hl⟩

end Sys2Proof.Machine
end

section
/-! PROOF. The poll cycle: CYCLE and CYCLE3 hand each operation the result of the one before (spec/00_scope.md section 1,
spec/30_encoding.md section 8). -/

namespace Sys2Proof.Machine

open Sys2Proof.Spec

variable {i : Instr} {s : State} {w : OpWord}

/-- On an idle block an operation issued as its word runs (R83). -/
theorem issue_of_idle (hidle : s.phase = .idle) (hwf : i.wf = true) (hword : encode s.config.btnPos i = .operation w) :
    issue i s = exec i s := by
  have hrun : step { s with issued := w :: s.issued } = exec i s :=
    step_of_accepted (s := { s with issued := w :: s.issued }) hidle rfl (decodeOperation_of_encode hwf hword)
  unfold issue
  split
  next w' _ hword' =>
    obtain rfl : w = w' := Code.operation.inj (hword.symm.trans hword')
    exact hrun
  next hnone => exact (hnone w hidle hword).elim

/-- A line whose operation completes from an idle block, and the lines after it (R83). -/
theorem runLines_cons {line : Line} {lines : List Line} {t : State} (hline : line.instr s.result = some i)
    (hidle : s.phase = .idle) (hwf : i.wf = true) (hword : encode s.config.btnPos i = .operation w)
    (hexec : exec i s = .next t) : runLines (line :: lines) s = runLines lines t := by
  rw [runLines, hline]
  show andThen (issue i s) (runLines lines) = _
  rw [issue_of_idle hidle hwf hword, hexec, andThen_next]

/-- The state in which the word of a poll cycle is ready: POLL, STEP on its ButtonState, ENCODE of its Command. -/
def encoded (word : TxWord) (s : State) : State :=
  { afterStep (pollButtons s) (afterPoll s) with result := .word word }

/-- The Command of a poll cycle is legal in a legal build (R140). -/
theorem stepCommand_wf (bs : ButtonState) (h : s.config.wf = true) : (stepCommand bs s).wf = true :=
  (channel_and_btnPos_of_wf h).1

/-- The first three lines of a poll cycle hand POLL's ButtonState to STEP and STEP's Command to ENCODE (R3, R84). -/
theorem runLines_until_encoded {word : TxWord} (hidle : s.phase = .idle) (hwf : s.config.wf = true)
    (hword : ∀ u : State, exec (.encode (stepCommand (pollButtons s) s)) u =
      .next { u with phase := .idle, result := .word word })
    (lines : List Line) : runLines (.poll :: .stepRes :: .encodeRes :: lines) s = runLines lines (encoded word s) := by
  have hpoll := runLines_cons (line := .poll) (lines := .stepRes :: .encodeRes :: lines) (s := s) rfl hidle rfl rfl
    (exec_poll s)
  have hstep := runLines_cons (line := .stepRes) (lines := .encodeRes :: lines) (s := afterPoll s) rfl rfl rfl rfl
    (stepComputesItsClosedForm (pollButtons s) (afterPoll s))
  have hencode := runLines_cons (line := .encodeRes) (lines := lines) (s := afterStep (pollButtons s) (afterPoll s))
    rfl rfl (stepCommand_wf (pollButtons s) hwf) rfl (hword _)
  exact hpoll.trans (hstep.trans hencode)

/-- TRANSMIT overwrites the result, so a frame sent from there leaves what one sent straight after the STEP leaves. -/
theorem afterTransmit_encoded (word : TxWord) (s : State) :
    afterTransmit word (encoded word s) = afterTransmit word (afterStep (pollButtons s) (afterPoll s)) := by
  have overwrites (u : State) (r : Result) : afterTransmit word { u with result := r } = afterTransmit word u := rfl
  exact overwrites _ _

/-- A TRANSMIT line on an idle block (R83). -/
theorem runLines_transmit (word : TxWord) (hidle : s.phase = .idle) :
    runLines [.transmit word] s = .next (afterTransmit word s) :=
  runLines_cons rfl hidle rfl rfl (exec_transmit word s)

/-- Settles O52: each line's `%res` is the result the line before left. -/
theorem cycleFollowsTheDataFlow : Obligations.CycleFollowsTheDataFlow := by
  intro s hidle hwf
  obtain ⟨word, hword⟩ := encodeIsTotalAndPure _ (stepCommand_wf (pollButtons s) hwf)
  refine ⟨word, hword, ?_⟩
  have htransmit : runLines [.transmitRes] (encoded word s) = .next (afterTransmit word (encoded word s)) :=
    runLines_cons rfl rfl rfl rfl (exec_transmit word _)
  rw [cycle, runLines_until_encoded hidle hwf hword, htransmit, afterTransmit_encoded]

/-- CYCLE3 is the first three lines, then three TRANSMITs of the one word with the caller's pause between (R84). -/
theorem runCycle3_eq {word : TxWord} (hidle : s.phase = .idle) (hwf : s.config.wf = true)
    (hword : ∀ u : State, exec (.encode (stepCommand (pollButtons s) s)) u =
      .next { u with phase := .idle, result := .word word }) :
    runCycle3 s = .next (afterTransmit word (wait .tRepeatGap (afterTransmit word (wait .tRepeatGap
      (afterTransmit word (encoded word s)))))) := by
  have hready : runLines [.poll, .stepRes, .encodeRes] s = .next (encoded word s) :=
    runLines_until_encoded hidle hwf hword []
  rw [runCycle3, hready, andThen_next]
  show andThen (runLines [.transmit word] (encoded word s)) _ = _
  rw [runLines_transmit word rfl, andThen_next, runLines_transmit word rfl, andThen_next, runLines_transmit word rfl]

/-- Two more frames of a word, each after the caller's pause, add to the trace and change nothing else. -/
theorem repeat_frames (word : TxWord) {u t : State}
    (ht : t = afterTransmit word (wait .tRepeatGap (afterTransmit word (wait .tRepeatGap (afterTransmit word u))))) :
    t.trace = u.trace ++ frame word ++ [.wait .tRepeatGap] ++ frame word ++ [.wait .tRepeatGap] ++ frame word ∧
      t = { afterTransmit word u with trace := t.trace } := by
  subst ht
  exact ⟨rfl, rfl⟩

/-- Settles O53: the second and third frames change nothing but the trace. -/
theorem cycle3SendsTheFrameThreeTimes : Obligations.Cycle3SendsTheFrameThreeTimes := by
  intro s hidle hwf
  obtain ⟨word, hword⟩ := encodeIsTotalAndPure _ (stepCommand_wf (pollButtons s) hwf)
  obtain ⟨t, ht⟩ : ∃ t, t = afterTransmit word (wait .tRepeatGap (afterTransmit word (wait .tRepeatGap
      (afterTransmit word (encoded word s))))) := ⟨_, rfl⟩
  obtain ⟨htrace, hrest⟩ := repeat_frames word ht
  rw [afterTransmit_encoded] at hrest
  exact ⟨word, t, hword, ht ▸ runCycle3_eq hidle hwf hword, htrace, hrest⟩

end Sys2Proof.Machine
end
